-- ==== Sys2Proof/Word.lean ====
section
/-! DEFINITION. The word types of the rtclock I/O block: register bytes (R8, "unsigned 8-bit numbers") and the
16-bit access words that spell host accesses (R47). -/

namespace Sys2Proof

/-- A register value or a byte on the two-wire bus (R8, R35). -/
abbrev Byte := BitVec 8

/-- A 16-bit access word (R47). -/
abbrev Word := BitVec 16

/-- A register offset 0x0..0xF from BASE (R13). -/
abbrev Offset := BitVec 4

/-- A digit slot index or display position 0..3 (R20, R22). -/
abbrev Slot := BitVec 2

end Sys2Proof
end

