-- ==== Sys2Proof/Syntax.lean ====
section
/-! DEFINITION. The operations a host access can spell: one constructor for each row of spec/opcode_table.json
(R52). A write's operand is the whole written byte (R49), so that no bit of an access word is dropped. -/

namespace Sys2Proof

/-- One host access (R52). -/
inductive Instr where
  /-- TWI_CTRL written with EN = 0 (R68). -/
  | twiDisable (d : Byte)
  /-- TWI_CTRL written with EN = 1, INT = 0 (R67). -/
  | twiConfig (d : Byte)
  /-- TWI_CTRL written with EN = INT = STA = 1, STO = 0 (R63). -/
  | twiStart (d : Byte)
  /-- TWI_CTRL written with EN = INT = STO = 1, STA = 0 (R64). -/
  | twiStop (d : Byte)
  /-- TWI_CTRL written with EN = INT = 1, STA = STO = 0 (R65). -/
  | twiXfer (d : Byte)
  /-- TWI_CTRL written with EN = INT = STA = STO = 1 (R66). -/
  | twiCmdReserved (d : Byte)
  /-- Read of TWI_CTRL (R69). -/
  | twiCtrlRd
  /-- Write of TWI_STATUS (R71). -/
  | twiStatusWr (d : Byte)
  /-- Read of TWI_STATUS (R70). -/
  | twiStatusRd
  /-- Write of TWI_DATA (R72). -/
  | twiDataWr (d : Byte)
  /-- Read of TWI_DATA (R73). -/
  | twiDataRd
  /-- Write of TWI_BR (R74). -/
  | twiBrWr (d : Byte)
  /-- Read of TWI_BR (R75). -/
  | twiBrRd
  /-- Write of DISP_DIGITn (R90). -/
  | dispDigitWr (n : Slot) (d : Byte)
  /-- Read of DISP_DIGITn (R91). -/
  | dispDigitRd (n : Slot)
  /-- Write of DISP_STATUS (R92). -/
  | dispStatusWr (d : Byte)
  /-- Read of DISP_STATUS (R93). -/
  | dispStatusRd
  /-- Write of DISP_SEL (R96). -/
  | dispSelWr (d : Byte)
  /-- Read of DISP_SEL (R94). -/
  | dispSelRd
  /-- Write of DISP_SEG (R96). -/
  | dispSegWr (d : Byte)
  /-- Read of DISP_SEG (R95). -/
  | dispSegRd
  /-- Write of TMR_CTRL (R102). -/
  | tmrCtrlWr (d : Byte)
  /-- Read of TMR_CTRL (R103). -/
  | tmrCtrlRd
  /-- Write of TMR_COUNT (R105). -/
  | tmrCountWr (d : Byte)
  /-- Read of TMR_COUNT (R104). -/
  | tmrCountRd
  /-- Write of TMR_FLAGS (R106). -/
  | tmrFlagsWr (d : Byte)
  /-- Read of TMR_FLAGS (R107). -/
  | tmrFlagsRd
  /-- Write of reserved offset 0xE (o = 0) or 0xF (o = 1) (R39). -/
  | rsvdWr (o : BitVec 1) (d : Byte)
  /-- Read of reserved offset 0xE (o = 0) or 0xF (o = 1) (R39). -/
  | rsvdRd (o : BitVec 1)
  deriving DecidableEq, Repr

/-- Why a 16-bit word spells no access (R48). -/
inductive NotAccess where
  /-- The Z field is not 0. -/
  | zNotZero
  /-- A read word whose DATA field is not 0. -/
  | readWithData
  deriving DecidableEq, Repr

end Sys2Proof
end

