-- ==== Sys2Proof/WellFormed.lean ====
section
/-! DEFINITION. Well-formed instructions: the bits of a TWI_CTRL write that select its operation (R51). The
operands of every other row are free. -/

namespace Sys2Proof

/-- The written byte of a TWI_CTRL operation has the EN, INT, STA and STO bits of its row (R50, R51). -/
def Instr.wellFormed : Instr → Bool
  | .twiDisable d => d.getLsbD 2 == false
  | .twiConfig d => d.getLsbD 2 && !d.getLsbD 7
  | .twiStart d => d.getLsbD 2 && d.getLsbD 7 && d.getLsbD 5 && !d.getLsbD 4
  | .twiStop d => d.getLsbD 2 && d.getLsbD 7 && !d.getLsbD 5 && d.getLsbD 4
  | .twiXfer d => d.getLsbD 2 && d.getLsbD 7 && !d.getLsbD 5 && !d.getLsbD 4
  | .twiCmdReserved d => d.getLsbD 2 && d.getLsbD 7 && d.getLsbD 5 && d.getLsbD 4
  | .twiCtrlRd | .twiStatusWr _ | .twiStatusRd | .twiDataWr _ | .twiDataRd | .twiBrWr _ | .twiBrRd => true
  | .dispDigitWr _ _ | .dispDigitRd _ | .dispStatusWr _ | .dispStatusRd => true
  | .dispSelWr _ | .dispSelRd | .dispSegWr _ | .dispSegRd => true
  | .tmrCtrlWr _ | .tmrCtrlRd | .tmrCountWr _ | .tmrCountRd | .tmrFlagsWr _ | .tmrFlagsRd => true
  | .rsvdWr _ _ | .rsvdRd _ => true

end Sys2Proof
end

