-- ==== Sys2Proof/Decode.lean ====
section
/-! DEFINITION. The access word (R47): its fields, the decoder (R48, R51, R52), the encoder, and the opcode table of
R52 as rows of mask and match. -/

namespace Sys2Proof

/-- The W field, bit 15: 1 = write access (R47). -/
def fieldW (w : Word) : Bool := w.getLsbD 15

/-- The Z field, bits 14:12, which must be 0 (R47). -/
def fieldZ (w : Word) : BitVec 3 := w.extractLsb' 12 3

/-- The OFF field, bits 11:8 (R47). -/
def fieldOff (w : Word) : Offset := w.extractLsb' 8 4

/-- The DATA field, bits 7:0 (R47). -/
def fieldData (w : Word) : Byte := w.extractLsb' 0 8

/-- The word of a write access, {1, 000, OFF, DATA} (R47), as R55 writes it: 0x8000 | OFF << 8 | DATA. -/
def writeWord (off : Offset) (d : Byte) : Word := 0x8000#16 ||| (off.setWidth 16 <<< 8) ||| d.setWidth 16

/-- The word of a read access, {0, 000, OFF, 0x00} (R47), as R55 writes it: OFF << 8. -/
def readWord (off : Offset) : Word := off.setWidth 16 <<< 8

/-- Which of the six operations a TWI_CTRL write selects: first matching row wins (R51). -/
def decodeCtrlWrite (d : Byte) : Instr :=
  if d.getLsbD 2 = false then .twiDisable d
  else if d.getLsbD 7 = false then .twiConfig d
  else
    match d.getLsbD 5, d.getLsbD 4 with
    | true, false => .twiStart d
    | false, true => .twiStop d
    | false, false => .twiXfer d
    | true, true => .twiCmdReserved d

/-- The access a write of d at an offset is (R52). Offsets 0xE and 0xF are the reserved registers (R39). -/
def decodeWrite (off : Offset) (d : Byte) : Instr :=
  match off.toNat with
  | 0x0 => decodeCtrlWrite d
  | 0x1 => .twiStatusWr d
  | 0x2 => .twiDataWr d
  | 0x3 => .twiBrWr d
  | 0x4 | 0x5 | 0x6 | 0x7 => .dispDigitWr (off.extractLsb' 0 2) d
  | 0x8 => .dispStatusWr d
  | 0x9 => .dispSelWr d
  | 0xA => .dispSegWr d
  | 0xB => .tmrCtrlWr d
  | 0xC => .tmrCountWr d
  | 0xD => .tmrFlagsWr d
  | _ => .rsvdWr (off.extractLsb' 0 1) d

/-- The access a read at an offset is (R52). -/
def decodeRead (off : Offset) : Instr :=
  match off.toNat with
  | 0x0 => .twiCtrlRd
  | 0x1 => .twiStatusRd
  | 0x2 => .twiDataRd
  | 0x3 => .twiBrRd
  | 0x4 | 0x5 | 0x6 | 0x7 => .dispDigitRd (off.extractLsb' 0 2)
  | 0x8 => .dispStatusRd
  | 0x9 => .dispSelRd
  | 0xA => .dispSegRd
  | 0xB => .tmrCtrlRd
  | 0xC => .tmrCountRd
  | 0xD => .tmrFlagsRd
  | _ => .rsvdRd (off.extractLsb' 0 1)

/-- The decoder: the access a word spells, or why it spells none (R47, R48, R52). -/
def decode (w : Word) : Except NotAccess Instr :=
  if fieldZ w ≠ 0 then .error .zNotZero
  else if fieldW w then .ok (decodeWrite (fieldOff w) (fieldData w))
  else if fieldData w ≠ 0 then .error .readWithData
  else .ok (decodeRead (fieldOff w))

/-- The access word of an access (R47, R52). The offset of digit slot n is 0x4 + n, and that of a reserved register
is 0xE + OFF[0] (R49, R13). -/
def encode : Instr → Word
  | .twiDisable d => writeWord 0x0 d
  | .twiConfig d => writeWord 0x0 d
  | .twiStart d => writeWord 0x0 d
  | .twiStop d => writeWord 0x0 d
  | .twiXfer d => writeWord 0x0 d
  | .twiCmdReserved d => writeWord 0x0 d
  | .twiCtrlRd => readWord 0x0
  | .twiStatusWr d => writeWord 0x1 d
  | .twiStatusRd => readWord 0x1
  | .twiDataWr d => writeWord 0x2 d
  | .twiDataRd => readWord 0x2
  | .twiBrWr d => writeWord 0x3 d
  | .twiBrRd => readWord 0x3
  | .dispDigitWr n d => writeWord (0b01#2 ++ n) d
  | .dispDigitRd n => readWord (0b01#2 ++ n)
  | .dispStatusWr d => writeWord 0x8 d
  | .dispStatusRd => readWord 0x8
  | .dispSelWr d => writeWord 0x9 d
  | .dispSelRd => readWord 0x9
  | .dispSegWr d => writeWord 0xA d
  | .dispSegRd => readWord 0xA
  | .tmrCtrlWr d => writeWord 0xB d
  | .tmrCtrlRd => readWord 0xB
  | .tmrCountWr d => writeWord 0xC d
  | .tmrCountRd => readWord 0xC
  | .tmrFlagsWr d => writeWord 0xD d
  | .tmrFlagsRd => readWord 0xD
  | .rsvdWr o d => writeWord (0b111#3 ++ o) d
  | .rsvdRd o => readWord (0b111#3 ++ o)

/-- The host's reading of a table row: the word's low nbits bits, every bit above them 0. An access word has 16
bits and is not laid out in bytes anywhere (R45, R47). -/
def decodeTableWord (nbits w : Nat) : Option Instr :=
  match decode (BitVec.ofNat 16 (w % 2 ^ nbits)) with
  | .ok i => some i
  | .error _ => none

/-- One row of the opcode table of R52. -/
structure OpcodeRow where
  mnemonic : String
  pattern : Word
  mask : Word
  deriving DecidableEq, Repr

/-- A word is of a row when word & mask == match (R52). -/
def OpcodeRow.matchesWord (r : OpcodeRow) (w : Word) : Bool := w &&& r.mask == r.pattern

/-- The TWI rows of the table of R52, in its order. -/
def twiRows : List OpcodeRow :=
  [⟨"TWI_DISABLE", 0x8000, 0xFF04⟩, ⟨"TWI_CONFIG", 0x8004, 0xFF84⟩, ⟨"TWI_START", 0x80A4, 0xFFB4⟩,
   ⟨"TWI_STOP", 0x8094, 0xFFB4⟩, ⟨"TWI_XFER", 0x8084, 0xFFB4⟩, ⟨"TWI_CMD_RESERVED", 0x80B4, 0xFFB4⟩,
   ⟨"TWI_CTRL_RD", 0x0000, 0xFFFF⟩, ⟨"TWI_STATUS_WR", 0x8100, 0xFF00⟩, ⟨"TWI_STATUS_RD", 0x0100, 0xFFFF⟩,
   ⟨"TWI_DATA_WR", 0x8200, 0xFF00⟩, ⟨"TWI_DATA_RD", 0x0200, 0xFFFF⟩, ⟨"TWI_BR_WR", 0x8300, 0xFF00⟩,
   ⟨"TWI_BR_RD", 0x0300, 0xFFFF⟩]

/-- The display rows. -/
def displayRows : List OpcodeRow :=
  [⟨"DISP_DIGIT_WR", 0x8400, 0xFC00⟩, ⟨"DISP_DIGIT_RD", 0x0400, 0xFCFF⟩, ⟨"DISP_STATUS_WR", 0x8800, 0xFF00⟩,
   ⟨"DISP_STATUS_RD", 0x0800, 0xFFFF⟩, ⟨"DISP_SEL_WR", 0x8900, 0xFF00⟩, ⟨"DISP_SEL_RD", 0x0900, 0xFFFF⟩,
   ⟨"DISP_SEG_WR", 0x8A00, 0xFF00⟩, ⟨"DISP_SEG_RD", 0x0A00, 0xFFFF⟩]

/-- The timer rows and the reserved offsets. -/
def timerRows : List OpcodeRow :=
  [⟨"TMR_CTRL_WR", 0x8B00, 0xFF00⟩, ⟨"TMR_CTRL_RD", 0x0B00, 0xFFFF⟩, ⟨"TMR_COUNT_WR", 0x8C00, 0xFF00⟩,
   ⟨"TMR_COUNT_RD", 0x0C00, 0xFFFF⟩, ⟨"TMR_FLAGS_WR", 0x8D00, 0xFF00⟩, ⟨"TMR_FLAGS_RD", 0x0D00, 0xFFFF⟩,
   ⟨"RSVD_WR", 0x8E00, 0xFE00⟩, ⟨"RSVD_RD", 0x0E00, 0xFEFF⟩]

/-- The opcode table of R52, 29 rows. -/
def opcodeTable : List OpcodeRow := twiRows ++ displayRows ++ timerRows

/-- The place of an access's row in the opcode table. -/
def Instr.rowIndex : Instr → Nat
  | .twiDisable _ => 0 | .twiConfig _ => 1 | .twiStart _ => 2 | .twiStop _ => 3 | .twiXfer _ => 4
  | .twiCmdReserved _ => 5 | .twiCtrlRd => 6 | .twiStatusWr _ => 7 | .twiStatusRd => 8 | .twiDataWr _ => 9
  | .twiDataRd => 10 | .twiBrWr _ => 11 | .twiBrRd => 12 | .dispDigitWr _ _ => 13 | .dispDigitRd _ => 14
  | .dispStatusWr _ => 15 | .dispStatusRd => 16 | .dispSelWr _ => 17 | .dispSelRd => 18 | .dispSegWr _ => 19
  | .dispSegRd => 20 | .tmrCtrlWr _ => 21 | .tmrCtrlRd => 22 | .tmrCountWr _ => 23 | .tmrCountRd => 24
  | .tmrFlagsWr _ => 25 | .tmrFlagsRd => 26 | .rsvdWr _ _ => 27 | .rsvdRd _ => 28

end Sys2Proof
end

