-- ==== Sys2Proof/Config.lean ====
section
/-! DEFINITION. The open parameters of the block (R7) that are data of a run, their defaults, and the free values
of host arithmetic the spec does not state. -/

namespace Sys2Proof

/-- A font glyph: one bit per segment A..G in the bit order of R86. A pattern of R88 has bit 7 (DP) clear, so a
glyph is its low seven bits (log 7). -/
abbrev Glyph := BitVec 7

/-- The parameters a run is given (R7): they are held in State so that a statement about every state is a
statement about every choice of them. No step changes them. -/
structure Params where
  /-- BASE, the address of register offset 0x0 in the host's address space (R32). -/
  base : Nat
  /-- FONT, the glyphs of the codes 0x0..0xF (R88). -/
  font : Vector Glyph 16
  deriving DecidableEq, Repr

/-- The default FONT of R88. -/
def Config.defaultFont : Vector Glyph 16 :=
  #v[0x3F, 0x06, 0x5B, 0x4F, 0x66, 0x6D, 0x7D, 0x07, 0x7F, 0x6F, 0x77, 0x7C, 0x39, 0x5E, 0x79, 0x71]

/-- The parameters State.reset names: the default FONT of R88, and BASE 0 (DESIGN CHOICE, log 6: R7 leaves BASE
open with no default). -/
def Config.defaultParams : Params := { base := 0, font := Config.defaultFont }

/-- RTC_ADDR's default (R7, R115). -/
def Config.rtcAddr : BitVec 7 := 0x68

/-- RTC_NREGS's default (R7, R115). -/
def Config.rtcNregs : Nat := 64

/-- HOURS_RESET_THRESHOLD's default (R7, R130). -/
def Config.hoursResetThreshold : Nat := 23

/-- Free value (log 12): what a host script's subtraction gives when the result falls below zero. R55 names the
operator and not this result. -/
opaque Config.hostSubBelowZero : Nat → Nat → Nat

/-- Free value (log 12): a host script's division by zero. R55 does not state it. -/
opaque Config.hostDivByZero : Nat → Nat

/-- Free value (log 12): a host script's remainder by zero. R55 does not state it. -/
opaque Config.hostModByZero : Nat → Nat

/-- Free value (log 12): what a host script reads from a variable that nothing has assigned. R55 does not state
it. -/
opaque Config.hostUnassigned : Nat → Nat

end Sys2Proof
end

