-- ==== Sys2Proof/Machine/State.lean ====
section
/-! DEFINITION. The state of the block (spec/10_state.md), of the bus environment and the host beside it (R30), the
records of what can be observed (R6), and the reasons a step stops. All of it is plain data. -/

namespace Sys2Proof.Machine

/-! ## The TWI unit -/

/-- TWI.phase, the bus-ownership state (R18). -/
inductive Phase where
  | idle | started | addrNack | mt | mr | mrEnd
  deriving DecidableEq, Repr

/-- TWI.op, the operation in flight (R18). -/
inductive TwiOp where
  | none
  | start
  | stop
  /-- Transmit the address byte b. -/
  | sendAddr (b : Byte)
  /-- Transmit the data byte b. -/
  | sendData (b : Byte)
  /-- Receive a byte and return the acknowledge bit k (true = ACK). -/
  | recv (k : Bool)
  deriving DecidableEq, Repr

/-- The TWI bus master unit (R14 to R18). STA and STO are not stored: they show `op` (R14). -/
structure Twi where
  /-- TWI_CTRL.INT (R14). -/
  int : Bool
  /-- TWI_CTRL.EA (R14). -/
  ea : Bool
  /-- TWI_CTRL.WC (R14). -/
  wc : Bool
  /-- TWI_CTRL.EN (R14). -/
  en : Bool
  /-- TWI_STATUS (R15, R57). -/
  status : Byte
  /-- TWI_DATA (R16). -/
  data : Byte
  /-- TWI_BR (R17). -/
  br : Byte
  /-- TWI.phase (R18). -/
  phase : Phase
  /-- TWI.op (R18). -/
  op : TwiOp
  deriving DecidableEq, Repr

/-! ## The display and timer units -/

/-- The display multiplexer unit (R20 to R24). -/
structure Display where
  /-- DIGIT[0..3], the digit buffer (R20). -/
  digit : Vector Byte 4
  /-- DISP_STATUS.DERR (R22). -/
  derr : Bool
  /-- DISP.CURSOR (R22). -/
  cursor : Slot
  /-- DISP.SEL, the digit-select lines (R23, R97). -/
  sel : BitVec 4
  /-- DISP.SEG, the segment lines (R24, R97). -/
  seg : Byte
  deriving DecidableEq, Repr

/-- The periodic timer unit (R26 to R28). -/
structure Timer where
  /-- TMR_CTRL.TIE (R26). -/
  tie : Bool
  /-- TMR_CTRL.LOCK (R26). -/
  lock : Bool
  /-- TMR_CTRL.CS (R26). -/
  cs : BitVec 3
  /-- TMR_COUNT (R27). -/
  count : Byte
  /-- TMR_FLAGS.OVR (R28). -/
  ovr : Bool
  /-- TMR_FLAGS.OVF (R28). -/
  ovf : Bool
  deriving DecidableEq, Repr

/-! ## What can be observed (R6) -/

/-- A bus event (R82). An acknowledge bit is true for ACK. -/
inductive BusEvent where
  | start
  | rstart
  | addr (b : Byte) (a : Bool)
  | write (b : Byte) (a : Bool)
  | read (v : Byte) (k : Bool)
  | stop
  | release
  deriving DecidableEq, Repr

/-- The values on the display's output lines (R97). -/
structure Lines where
  sel : BitVec 4
  seg : Byte
  deriving DecidableEq, Repr

/-! ## The bus environment (R112) -/

/-- The framing state of the reference RTC slave (R115). -/
inductive SlaveFrame where
  | free | waitAddr | wPtr | wData | rData | ignore
  deriving DecidableEq, Repr

/-- The reference RTC slave (R115). RTC_NREGS is the number of its registers. -/
structure RtcSlave where
  /-- RTC_ADDR. -/
  addr : BitVec 7
  /-- regs[0 .. RTC_NREGS-1]. -/
  regs : List Byte
  /-- The register pointer. -/
  ptr : Nat
  /-- The framing state. -/
  frame : SlaveFrame
  deriving DecidableEq, Repr

/-- The devices on the two-wire bus: the generic contract, whose every answer is free and which needs no state of
its own, or the reference RTC slave (R112, R114). -/
inductive BusEnv where
  | generic
  | rtc (slave : RtcSlave)
  deriving DecidableEq, Repr

/-- What the generic environment answers to one engine step: an acknowledge bit for `env.addr` and `env.write`, a
byte for `env.read` (R112). It is an input: a statement about every answer is a statement about every slave
(log 3). -/
structure BusAnswer where
  ack : Bool
  byte : Byte
  deriving DecidableEq, Repr

/-! ## The host script (R55), host state (R30) -/

/-- The operators of host expressions (R55). The comparisons give 1 or 0. -/
inductive HostOp where
  | band | bor | shr | shl | add | sub | mul | div | mod | eq | ne | gt
  deriving DecidableEq, Repr

/-- A host expression or condition (R55). Variables and labels are numbered. -/
inductive HostExpr where
  | lit (n : Nat)
  | var (x : Nat)
  | bin (o : HostOp) (a b : HostExpr)
  /-- `a in {..}`. The braces hold constants only: R55 does not say what may stand in them (DESIGN CHOICE, log 19). -/
  | isIn (a : HostExpr) (l : List Nat)
  deriving DecidableEq, Repr

/-- The error kinds of the host routines (D38). -/
inductive HostError where
  | startFailed | addrNack | dataNack | badStatus | timeout
  deriving DecidableEq, Repr

/-- A host statement (R55). -/
inductive HostStmt where
  /-- `W REG, e`. -/
  | w (reg : Offset) (e : HostExpr)
  /-- `R REG -> $x`. -/
  | r (reg : Offset) (x : Nat)
  /-- `POLL REG, m, v`. Its `$t` is no variable of the script (DESIGN CHOICE, log 18). -/
  | poll (reg : Offset) (m v : HostExpr)
  /-- `IF c GOTO L`. A condition is any expression, true when it is not 0 (DESIGN CHOICE, log 20). -/
  | ifGoto (c : HostExpr) (l : Nat)
  /-- `L:`. -/
  | label (l : Nat)
  /-- `DONE e`. -/
  | done (e : HostExpr)
  /-- `FAIL k`. -/
  | fail (k : HostError)
  /-- `CALL r(args) -> $x`, with the label a FAIL in r goes to, if the caller names one; $x is assigned by a DONE only
  (DESIGN CHOICE, log 22). -/
  | call (routine : Nat) (args : List HostExpr) (x : Nat) (onFail : Option Nat)
  /-- `$x <- e`. -/
  | assign (x : Nat) (e : HostExpr)
  /-- `$x <- draw button` (R130): 1 when the button is pressed. -/
  | drawButton (x : Nat)
  deriving DecidableEq, Repr

/-- A running host routine: its statements, the position of the next one, its variables, and where its caller wants
the result and a failure. -/
structure HostFrame where
  code : List HostStmt
  pc : Nat
  vars : List (Nat × Nat)
  result : Nat
  onFail : Option Nat
  deriving DecidableEq, Repr

/-- How a host script ended (R55, R162). -/
inductive HostEnd where
  | done (n : Nat)
  | failed (k : HostError)
  deriving DecidableEq, Repr

/-- The host's own state as far as its scripts need it (R30): the routines a CALL can name, the running routines with
the innermost first, and how the script ended. -/
structure HostCpu where
  routines : List (List HostStmt)
  frames : List HostFrame
  ended : Option HostEnd
  deriving DecidableEq, Repr

/-! ## Moves of the agents (R4) -/

/-- What the host asks of the address window (R32 to R34, R47). -/
inductive HostRequest where
  /-- The access an access word spells. -/
  | word (w : Word)
  /-- A load of `size` bytes at a host address. -/
  | load (addr size : Nat)
  /-- A store of `size` bytes at a host address; v is the byte of a 1-byte store. -/
  | store (addr size : Nat) (v : Byte)
  deriving DecidableEq, Repr

/-- One move of one agent (R4, R40), with the inputs it takes from outside. -/
inductive Move where
  /-- The host accesses the block (R33). -/
  | host (r : HostRequest)
  /-- The host script takes its next statement; `pressed` is the button line should that statement draw it
  (R55, R130). -/
  | script (pressed : Bool)
  /-- The environment lets the operation in flight finish (R76, R113) and, under the generic contract, answers so. -/
  | twiEngine (ans : BusAnswer)
  /-- The timer counts (R108). -/
  | timer
  /-- The display service takes a pending tick (R98). -/
  | display
  /-- A real RTC's own clock sets its first three registers (R122). -/
  | rtcClock (seconds minutes hours : Byte)
  deriving DecidableEq, Repr

/-! ## The machine -/

/-- The machine: the block's three units, the environment and host beside it, the records of what was observed, the
parameters, and the moves still to come. -/
structure State where
  /-- The TWI unit. -/
  twi : Twi
  /-- The display unit. -/
  disp : Display
  /-- The timer unit. -/
  tmr : Timer
  /-- The bus event history, oldest first (R82). -/
  history : List BusEvent
  /-- The values host reads returned, oldest first (R6, R9; log 5). -/
  readLog : List Byte
  /-- The line values service steps drove, oldest first (R99; log 5). -/
  pinLog : List Lines
  /-- The bus environment's state E (R112). -/
  env : BusEnv
  /-- The host's script (R30, R55). -/
  host : HostCpu
  /-- The open parameters (R7). -/
  params : Params
  /-- The moves still to come, the next one first: which agent moves when is an input (R4, R40; log 1). -/
  agenda : List Move
  deriving DecidableEq, Repr

/-- Why the machine stops with a fault. All are safe: nothing is claimed of a state after them. -/
inductive Fault where
  /-- Raised by step in a state outside R19, R21, R29 or R115: V11 of spec/93 rejects such launch states (log 8). -/
  | illegalLaunchState
  /-- Raised by the display service when the slot holds no digit code; no state that step accepts does (R21, R89). -/
  | illegalDigitCode
  /-- Raised by a receive when the reference slave's pointer names no register; no state that step accepts has one
  (R115). -/
  | slavePointerOutOfRange
  /-- Raised by a script move: the script jumps to no label, calls no routine or runs off its end, for which R55
  gives no meaning (log 13). -/
  | malformedScript
  deriving DecidableEq, Repr

/-- Why a step refuses. All are safe: the step is not taken. -/
inductive Refusal where
  /-- Raised by exec's arms for instructions that have no meaning yet; there are none. -/
  | notModelled (mnemonic : String)
  /-- Raised by a host move whose word spells no access (R48, V2). -/
  | notAnAccess (why : NotAccess)
  /-- Raised by a host move of 2 or more bytes that touches the window (R34, V1). -/
  | wideAccess
  deriving DecidableEq, Repr

/-- The TWI unit after reset (R31). -/
def Twi.reset : Twi :=
  { int := false, ea := false, wc := false, en := false, status := 0xF8, data := 0xFF, br := 0x00,
    phase := .idle, op := .none }

/-- The display unit after reset (R31). -/
def Display.reset : Display :=
  { digit := #v[0x10, 0x10, 0x10, 0x10], derr := false, cursor := 0, sel := 0x0, seg := 0x00 }

/-- The timer unit after reset (R31). -/
def Timer.reset : Timer :=
  { tie := false, lock := false, cs := 0, count := 0x00, ovr := false, ovf := false }

/-- A host that runs no script (log 12). -/
def HostCpu.noScript : HostCpu := { routines := [], frames := [], ended := none }

/-- The machine right after power-on reset (R31, R149): the block as R31 says, the bus event history empty, and
beside the block the generic environment (log 4), no script (log 12), the default parameters (log 6) and no pending
move (log 1). -/
def State.reset : State :=
  { twi := .reset, disp := .reset, tmr := .reset, history := [], readLog := [], pinLog := [], env := .generic,
    host := .noScript, params := Config.defaultParams, agenda := [] }

/-- The environment at the start of a run (R115): the reference slave's registers and pointer hold what the run's
start names, and its frame is FREE. -/
def BusEnv.atStart : BusEnv → BusEnv
  | .generic => .generic
  | .rtc r => .rtc { r with frame := .free }

/-- A launch state (R149, R162): the block just after reset beside the environment, host script, parameters and
moves the run's start names, with the history empty and a reference slave's frame FREE (R115). -/
def State.launch (env : BusEnv) (host : HostCpu) (params : Params) (agenda : List Move) : State :=
  { State.reset with env := env.atStart, host := host, params := params, agenda := agenda }

end Sys2Proof.Machine
end

