-- ==== Sys2Proof/Machine/Operands.lean ====
section
/-! DEFINITION. The fields of written bytes (R50, R58, R92, R102, R106) and the views of registers that reads return
(R14, R22, R23, R26, R28). -/

namespace Sys2Proof.Machine

/-- Bit 6 of a TWI_CTRL write: EA (R50). -/
def ctrlEA (d : Byte) : Bool := d.getLsbD 6

/-- Bit 0 of an address byte: the direction, true = read (R58). -/
def addrIsRead (b : Byte) : Bool := b.getLsbD 0

/-- Bits 7:1 of an address byte: the slave address (R58). -/
def addrSlave (b : Byte) : BitVec 7 := b.extractLsb' 1 7

/-- The address byte {addr7, rw} (R58). -/
def addrByte (a : BitVec 7) (isRead : Bool) : Byte := a ++ BitVec.ofBool isRead

/-- Bit 7 of a TMR_CTRL write: TIE (R102). -/
def tmrTIE (d : Byte) : Bool := d.getLsbD 7

/-- Bits 2:0 of a TMR_CTRL write: CS (R102). -/
def tmrCS (d : Byte) : BitVec 3 := d.extractLsb' 0 3

/-- A legal digit code is at most 0x11 (R20, R87). -/
abbrev LegalCode (d : Byte) : Prop := d ≤ 0x11

/-- Slot n of the digit buffer (R20). -/
def Display.slot (p : Display) (n : Slot) : Byte := p.digit[n.toNat]'n.isLt

/-- The digit buffer with slot n replaced (R90). -/
def Display.setSlot (p : Display) (n : Slot) (d : Byte) : Display :=
  { p with digit := p.digit.set n.toNat d n.isLt }

/-- The read value of TWI_CTRL: {INT, EA, op == START, op == STOP, WC, EN, 0, 0} (R14). -/
def Twi.ctrlValue (t : Twi) : Byte :=
  BitVec.ofBool t.int ++ BitVec.ofBool t.ea ++ BitVec.ofBool (t.op == .start) ++ BitVec.ofBool (t.op == .stop)
    ++ BitVec.ofBool t.wc ++ BitVec.ofBool t.en ++ 0#2

/-- The read value of DISP_STATUS: {DERR, 0, 0, 0, 0, 0, CURSOR} (R22). -/
def Display.statusValue (p : Display) : Byte := BitVec.ofBool p.derr ++ 0#5 ++ p.cursor

/-- The read value of DISP_SEL: the four lines in bits 3:0 (R23, R94). -/
def Display.selValue (p : Display) : Byte := p.sel.setWidth 8

/-- The read value of TMR_CTRL: {TIE, LOCK, 0, 0, 0, CS} (R26). -/
def Timer.ctrlValue (t : Timer) : Byte := BitVec.ofBool t.tie ++ BitVec.ofBool t.lock ++ 0#3 ++ t.cs

/-- The read value of TMR_FLAGS: {0, 0, 0, 0, 0, 0, OVR, OVF} (R28). -/
def Timer.flagsValue (t : Timer) : Byte := 0#6 ++ BitVec.ofBool t.ovr ++ BitVec.ofBool t.ovf

/-- The read value of the register at an offset (R13); the reserved offsets read 0x00 (R39). -/
def State.readReg (s : State) (off : Offset) : Byte :=
  match off.toNat with
  | 0x0 => s.twi.ctrlValue
  | 0x1 => s.twi.status
  | 0x2 => s.twi.data
  | 0x3 => s.twi.br
  | 0x4 | 0x5 | 0x6 | 0x7 => s.disp.slot (off.extractLsb' 0 2)
  | 0x8 => s.disp.statusValue
  | 0x9 => s.disp.selValue
  | 0xA => s.disp.seg
  | 0xB => s.tmr.ctrlValue
  | 0xC => s.tmr.count
  | 0xD => s.tmr.flagsValue
  | _ => 0x00

end Sys2Proof.Machine
end

