-- ==== Sys2Proof/Machine/Flags.lean ====
section
/-! DEFINITION. The flag and status computations: W1C flags, the lock, the overflow flags, and the status codes of R57
that completions report. -/

namespace Sys2Proof.Machine

/-- A write-1-to-clear flag after a write whose bit for it is `written` (R28, R22): 1 clears, 0 leaves. -/
def w1c (flag written : Bool) : Bool := flag && !written

/-- 0x08 START_SENT from IDLE, 0x10 RSTART_SENT from an owned phase (R57, R77). -/
def startStatus (first : Bool) : Byte := if first then 0x08 else 0x10

/-- The code of a completed address byte: 0x18 or 0x20 for SLA+W, 0x40 or 0x48 for SLA+R (R57, R79). -/
def addrStatus (isRead ack : Bool) : Byte :=
  match isRead, ack with
  | false, true => 0x18
  | false, false => 0x20
  | true, true => 0x40
  | true, false => 0x48

/-- The phase after an address byte (R79). -/
def addrPhase (isRead ack : Bool) : Phase :=
  match ack, isRead with
  | true, false => .mt
  | true, true => .mr
  | false, _ => .addrNack

/-- 0x28 TXDATA_ACK, 0x30 TXDATA_NACK (R57, R80). -/
def dataStatus (ack : Bool) : Byte := if ack then 0x28 else 0x30

/-- 0x50 RXDATA_ACK, 0x58 RXDATA_NACK (R57, R81). -/
def recvStatus (k : Bool) : Byte := if k then 0x50 else 0x58

/-- The phase after a received byte (R81). -/
def recvPhase (k : Bool) : Phase := if k then .mr else .mrEnd

/-- 0xF8 NO_INFO (R57). -/
def statusNoInfo : Byte := 0xF8

/-- 0x00 ILLEGAL_CMD (R57). -/
def statusIllegal : Byte := 0x00

/-- One count of the timer with its overflow flags (R108). -/
def Timer.tick (t : Timer) : Timer :=
  if t.count = 0xFF then { t with count := 0x00, ovr := t.ovr || t.ovf, ovf := true }
  else { t with count := t.count + 1 }

/-- When the timer has a step (R108). -/
abbrev Timer.Enabled (t : Timer) : Prop := t.cs ≠ 0 ∧ ¬(t.ovf = true ∧ t.tie = true)

/-- When a pending tick is taken by the display service (R98, R109). -/
abbrev Timer.TickPending (t : Timer) : Prop := t.ovf = true ∧ t.tie = true

end Sys2Proof.Machine
end

