-- ==== Sys2Proof/Machine/Ops.lean ====
section
/-! DEFINITION. The named operations every meaning and every agent is written over: answering a read, emitting a bus
event, the environment calls (R112 to R121), issuing and refusing a TWI command (R60, R61), the digit decoder (R89),
taking the overflow interrupt (R98, R140), and the launch-state invariants (V11). -/

namespace Sys2Proof.Machine

/-! ## Records -/

/-- `emit E`: append a bus event to the history (R9, R82). -/
def State.emit (s : State) (e : BusEvent) : State := { s with history := s.history ++ [e] }

/-- The value a host read returns; nothing of the block changes (R37). -/
def State.respond (s : State) (v : Byte) : State := { s with readLog := s.readLog ++ [v] }

/-! ## The bus environment's calls (R112)

Under the generic contract each call keeps the (empty) state and answers what the engine's move brings. -/

/-- A slave the rules can reach: its pointer names a register and the three time registers exist (R115, R116). -/
abbrev RtcSlave.Wf (r : RtcSlave) : Prop := r.ptr < r.regs.length ∧ 3 ≤ r.regs.length

/-- The environments a launch state may name (R115). -/
def BusEnv.wf : BusEnv → Bool
  | .generic => true
  | .rtc r => decide r.Wf

/-- `env.start(first)` (R112, R117): a START and a repeated START alike. -/
def BusEnv.start (_first : Bool) : BusEnv → BusEnv
  | .generic => .generic
  | .rtc r => .rtc { r with frame := .waitAddr }

/-- `env.stop()` (R112, R121). -/
def BusEnv.stop : BusEnv → BusEnv
  | .generic => .generic
  | .rtc r => .rtc { r with frame := .free }

/-- `env.release()` (R112, R121). Under the generic contract what follows is free (R114), as every answer is. -/
def BusEnv.release : BusEnv → BusEnv
  | .generic => .generic
  | .rtc r => .rtc { r with frame := .free }

/-- `env.addr(b)` on the reference slave (R118). -/
def RtcSlave.onAddr (r : RtcSlave) (b : Byte) : Bool × RtcSlave :=
  if r.frame = .waitAddr ∧ addrSlave b = r.addr then
    (true, { r with frame := if addrIsRead b then .rData else .wPtr })
  else (false, { r with frame := .ignore })

/-- `env.write(b)` on the reference slave (R119). -/
def RtcSlave.onWrite (r : RtcSlave) (b : Byte) : Bool × RtcSlave :=
  match r.frame with
  | .wPtr => (true, { r with ptr := b.toNat % r.regs.length, frame := .wData })
  | .wData => (true, { r with regs := r.regs.set r.ptr b, ptr := (r.ptr + 1) % r.regs.length })
  | .free | .waitAddr | .rData | .ignore => (false, r)

/-- `env.read(k)` on the reference slave (R120). None only for a pointer that names no register. -/
def RtcSlave.onRead (r : RtcSlave) (k : Bool) : Option (Byte × RtcSlave) :=
  match r.frame with
  | .rData =>
    match r.regs[r.ptr]? with
    | some v =>
      some (v, { r with ptr := (r.ptr + 1) % r.regs.length, frame := if k then .rData else .ignore })
    | none => none
  | .free | .waitAddr | .wPtr | .wData | .ignore => some (0xFF, r)

/-- `env.addr(b)` (R112). -/
def BusEnv.addr (e : BusEnv) (b : Byte) (ans : BusAnswer) : Bool × BusEnv :=
  match e with
  | .generic => (ans.ack, .generic)
  | .rtc r => ((r.onAddr b).1, .rtc (r.onAddr b).2)

/-- `env.write(b)` (R112). -/
def BusEnv.write (e : BusEnv) (b : Byte) (ans : BusAnswer) : Bool × BusEnv :=
  match e with
  | .generic => (ans.ack, .generic)
  | .rtc r => ((r.onWrite b).1, .rtc (r.onWrite b).2)

/-- `env.read(k)` (R112). -/
def BusEnv.read (e : BusEnv) (k : Bool) (ans : BusAnswer) : Option (Byte × BusEnv) :=
  match e with
  | .generic => some (ans.byte, .generic)
  | .rtc r =>
    match r.onRead k with
    | some (v, r') => some (v, .rtc r')
    | none => none

/-- Two BCD digits with the tens digit at most `maxTens` (R116). -/
def bcdValid (maxTens : Nat) (v : Byte) : Bool := v.toNat % 16 ≤ 9 && v.toNat / 16 ≤ maxTens

/-- A time a real RTC may show (R116, R122): the seconds beside the halt flag and the hours beside the 12/24 flag
are BCD (log 10). -/
def bcdTime (seconds minutes hours : Byte) : Bool :=
  bcdValid 5 (seconds &&& 0x7F) && bcdValid 5 minutes && bcdValid 2 (hours &&& 0xBF)

/-- The oscillator of a slave runs while its halt flag, bit 7 of register 0, is clear (R116, R122; log 10). -/
def RtcSlave.running (r : RtcSlave) : Bool :=
  match r.regs[0]? with
  | some v => !v.getLsbD 7
  | none => false

/-- A real RTC's clock sets registers 0 to 2 (R122). There is no such step while the oscillator is halted, for a time
that is not BCD, or under the generic contract, whose answers are free anyway (log 10). -/
def BusEnv.clock (seconds minutes hours : Byte) : BusEnv → BusEnv
  | .generic => .generic
  | .rtc r =>
    if r.running ∧ bcdTime seconds minutes hours then
      .rtc { r with regs := ((r.regs.set 0 seconds).set 1 minutes).set 2 hours }
    else .rtc r

/-! ## TWI commands -/

/-- Issuing operation o (R60). -/
def Twi.issue (t : Twi) (o : TwiOp) : Twi := { t with op := o, int := false, status := statusNoInfo }

/-- Refusing a command as illegal (R61). -/
def Twi.illegal (t : Twi) : Twi := { t with int := true, status := statusIllegal }

/-- EN <- 1; EA <- d[6] (R59, R67). -/
def Twi.configure (t : Twi) (d : Byte) : Twi := { t with en := true, ea := ctrlEA d }

/-- A TWI_CTRL write other than a disable changes nothing while an operation is in flight (R59). -/
def Twi.unlessBusy (t : Twi) (f : Twi → Twi) : Twi := if t.op = .none then f t else t

/-- Issue o, except in phase MR, where the command is illegal (R62: the START and STOP columns). -/
def Twi.issueUnlessReceiving (t : Twi) (o : TwiOp) : Twi := if t.phase = .mr then t.illegal else t.issue o

/-- What TWI_XFER with acknowledge bit k does in each phase (R62, R65). -/
def Twi.transfer (t : Twi) (k : Bool) : Twi :=
  match t.phase with
  | .started => t.issue (.sendAddr t.data)
  | .mt => t.issue (.sendData t.data)
  | .mr => t.issue (.recv k)
  | .idle | .addrNack | .mrEnd => t.illegal

/-- The TWI registers after a disable (R68). -/
def Twi.disable (t : Twi) (d : Byte) : Twi :=
  { t with op := .none, phase := .idle, int := false, wc := false, en := false, ea := ctrlEA d,
           status := statusNoInfo }

/-- The bus is released without a STOP when it is owned (R68). -/
def State.releaseBus (s : State) : State :=
  if s.twi.phase = .idle then s else { s with env := s.env.release }.emit .release

/-! ## The digit decoder and the service step -/

/-- render(x) (R89): None for a code above 0x11, which no slot can hold. -/
def render (font : Vector Glyph 16) (x : Byte) : Option Byte :=
  if h : x.toNat < 16 then some ((font[x.toNat]'h).setWidth 8)
  else if x = 0x10 then some 0x00
  else if x = 0x11 then some 0x40
  else none

/-- The pattern driven at position c: the decimal point is lit at position 1 (R98 step 4). -/
def withPoint (c : Slot) (p : Byte) : Byte := if c = 1 then p ||| 0x80 else p

/-- The select lines for position c: 1 << c (R98 step 2). -/
def selectLine (c : Slot) : BitVec 4 := 1#4 <<< c.toNat

/-- Taking the overflow interrupt: the display service step with its enabling condition (R98, R140). It saves no
state and changes no mode; clearing OVF is its acknowledgment (R141). The pin record gains the three line values of
R99 in their order: segments off under the old select lines, the new select line, the new pattern. -/
def takeTick (s : State) : Host.Outcome State Fault Refusal :=
  if s.tmr.TickPending then
    match render s.params.font (s.disp.slot s.disp.cursor) with
    | none => .fault .illegalDigitCode
    | some p =>
      .next { s with
        disp := { s.disp with
          sel := selectLine s.disp.cursor, seg := withPoint s.disp.cursor p, cursor := s.disp.cursor + 1 }
        tmr := { s.tmr with ovf := false }
        pinLog := s.pinLog ++
          [⟨s.disp.sel, 0x00⟩, ⟨selectLine s.disp.cursor, 0x00⟩,
           ⟨selectLine s.disp.cursor, withPoint s.disp.cursor p⟩] }
  else .next s

/-- The timer agent's step with its enabling condition (R108). -/
def timerStep (s : State) : State := if s.tmr.Enabled then { s with tmr := s.tmr.tick } else s

/-! ## Launch-state invariants (V11) -/

/-- R19 (a): an operation in flight implies INT = 0 and TWI_STATUS = 0xF8. -/
abbrev Twi.FlightQuiet (t : Twi) : Prop := t.op ≠ .none → t.int = false ∧ t.status = statusNoInfo

/-- R19 (b): EN = 0 implies phase IDLE and op NONE. -/
abbrev Twi.DisabledIdle (t : Twi) : Prop := t.en = false → t.phase = .idle ∧ t.op = .none

/-- R21: every digit slot holds a legal code. -/
abbrev Display.SlotsLegal (p : Display) : Prop := ∀ n : Fin 4, LegalCode p.digit[n]

/-- R29: CS != 0 if and only if LOCK = 1. -/
abbrev Timer.LockIffSelected (t : Timer) : Prop := t.cs ≠ 0 ↔ t.lock = true

/-- The preconditions of every launch state (V11: R19, R21, R29), and a slave that R115 describes (log 8). -/
abbrev State.Legal (s : State) : Prop :=
  s.twi.FlightQuiet ∧ s.twi.DisabledIdle ∧ s.disp.SlotsLegal ∧ s.tmr.LockIffSelected ∧ s.env.wf = true

end Sys2Proof.Machine
end

