-- ==== Sys2Proof/Machine/DisplayUnit.lean ====
section
/-! DEFINITION. The meanings of the display accesses (R90 to R96). The service step itself is takeTick (Ops.lean). -/

namespace Sys2Proof.Machine

/-- DISP_DIGIT_WR (R90): a code above 0x11 is refused with DERR. -/
def execDispDigitWr (n : Slot) (d : Byte) (s : State) : Host.Outcome State Fault Refusal :=
  .next { s with disp := if LegalCode d then s.disp.setSlot n d else { s.disp with derr := true } }

/-- DISP_DIGIT_RD (R91). -/
def execDispDigitRd (n : Slot) (s : State) : Host.Outcome State Fault Refusal := .next (s.respond (s.disp.slot n))

/-- DISP_STATUS_WR (R92): bit 7 clears DERR. -/
def execDispStatusWr (d : Byte) (s : State) : Host.Outcome State Fault Refusal :=
  .next { s with disp := { s.disp with derr := w1c s.disp.derr (d.getLsbD 7) } }

/-- DISP_STATUS_RD (R93). -/
def execDispStatusRd (s : State) : Host.Outcome State Fault Refusal := .next (s.respond s.disp.statusValue)

/-- DISP_SEL_WR (R96): ignored. -/
def execDispSelWr (_d : Byte) (s : State) : Host.Outcome State Fault Refusal := .next s

/-- DISP_SEL_RD (R94). -/
def execDispSelRd (s : State) : Host.Outcome State Fault Refusal := .next (s.respond s.disp.selValue)

/-- DISP_SEG_WR (R96): ignored. -/
def execDispSegWr (_d : Byte) (s : State) : Host.Outcome State Fault Refusal := .next s

/-- DISP_SEG_RD (R95). -/
def execDispSegRd (s : State) : Host.Outcome State Fault Refusal := .next (s.respond s.disp.seg)

end Sys2Proof.Machine
end

