-- ==== Sys2Proof/Machine/TimerUnit.lean ====
section
/-! DEFINITION. The meanings of the timer accesses (R102 to R107) and of the reserved offsets (R39). The timer's own
step is timerStep (Ops.lean). -/

namespace Sys2Proof.Machine

/-- TMR_CTRL_WR (R102): TIE at any time, CS and LOCK only while unlocked. -/
def execTmrCtrlWr (d : Byte) (s : State) : Host.Outcome State Fault Refusal :=
  .next { s with
    tmr :=
      if s.tmr.lock then { s.tmr with tie := tmrTIE d }
      else { s.tmr with tie := tmrTIE d, cs := tmrCS d, lock := tmrCS d != 0 } }

/-- TMR_CTRL_RD (R103). -/
def execTmrCtrlRd (s : State) : Host.Outcome State Fault Refusal := .next (s.respond s.tmr.ctrlValue)

/-- TMR_COUNT_WR (R105): ignored. -/
def execTmrCountWr (_d : Byte) (s : State) : Host.Outcome State Fault Refusal := .next s

/-- TMR_COUNT_RD (R104). -/
def execTmrCountRd (s : State) : Host.Outcome State Fault Refusal := .next (s.respond s.tmr.count)

/-- TMR_FLAGS_WR (R106): W1C of OVF and OVR. -/
def execTmrFlagsWr (d : Byte) (s : State) : Host.Outcome State Fault Refusal :=
  .next { s with
    tmr := { s.tmr with ovf := w1c s.tmr.ovf (d.getLsbD 0), ovr := w1c s.tmr.ovr (d.getLsbD 1) } }

/-- TMR_FLAGS_RD (R107). -/
def execTmrFlagsRd (s : State) : Host.Outcome State Fault Refusal := .next (s.respond s.tmr.flagsValue)

/-- RSVD_WR (R39): ignored. -/
def execRsvdWr (_o : BitVec 1) (_d : Byte) (s : State) : Host.Outcome State Fault Refusal := .next s

/-- RSVD_RD (R39): reads 0x00. -/
def execRsvdRd (_o : BitVec 1) (s : State) : Host.Outcome State Fault Refusal := .next (s.respond 0x00)

end Sys2Proof.Machine
end

