-- ==== Sys2Proof/Machine/TwiUnit.lean ====
section
/-! DEFINITION. The meanings of the TWI accesses (R59, R63 to R75), and the TWI engine that completes the operation in
flight (R76 to R81). -/

namespace Sys2Proof.Machine

/-! ## TWI_CTRL -/

/-- TWI_DISABLE (R68): taken even when busy. -/
def execTwiDisable (d : Byte) (s : State) : Host.Outcome State Fault Refusal :=
  .next { s.releaseBus with twi := s.twi.disable d }

/-- TWI_CONFIG (R67). -/
def execTwiConfig (d : Byte) (s : State) : Host.Outcome State Fault Refusal :=
  .next { s with twi := s.twi.unlessBusy fun t => t.configure d }

/-- TWI_START (R63). -/
def execTwiStart (d : Byte) (s : State) : Host.Outcome State Fault Refusal :=
  .next { s with twi := s.twi.unlessBusy fun t => (t.configure d).issueUnlessReceiving .start }

/-- TWI_STOP (R64). -/
def execTwiStop (d : Byte) (s : State) : Host.Outcome State Fault Refusal :=
  .next { s with twi := s.twi.unlessBusy fun t => (t.configure d).issueUnlessReceiving .stop }

/-- TWI_XFER (R65). -/
def execTwiXfer (d : Byte) (s : State) : Host.Outcome State Fault Refusal :=
  .next { s with twi := s.twi.unlessBusy fun t => (t.configure d).transfer (ctrlEA d) }

/-- TWI_CMD_RESERVED (R66). -/
def execTwiCmdReserved (d : Byte) (s : State) : Host.Outcome State Fault Refusal :=
  .next { s with twi := s.twi.unlessBusy fun t => (t.configure d).illegal }

/-- TWI_CTRL_RD (R69). -/
def execTwiCtrlRd (s : State) : Host.Outcome State Fault Refusal := .next (s.respond s.twi.ctrlValue)

/-! ## The other TWI registers -/

/-- TWI_STATUS_WR (R71): ignored. -/
def execTwiStatusWr (_d : Byte) (s : State) : Host.Outcome State Fault Refusal := .next s

/-- TWI_STATUS_RD (R70). -/
def execTwiStatusRd (s : State) : Host.Outcome State Fault Refusal := .next (s.respond s.twi.status)

/-- TWI_DATA_WR (R72): a collision while an operation is in flight. -/
def execTwiDataWr (d : Byte) (s : State) : Host.Outcome State Fault Refusal :=
  .next { s with
    twi := if s.twi.op = .none then { s.twi with data := d, wc := false } else { s.twi with wc := true } }

/-- TWI_DATA_RD (R73). -/
def execTwiDataRd (s : State) : Host.Outcome State Fault Refusal := .next (s.respond s.twi.data)

/-- TWI_BR_WR (R74): accepted at any time. -/
def execTwiBrWr (d : Byte) (s : State) : Host.Outcome State Fault Refusal :=
  .next { s with twi := { s.twi with br := d } }

/-- TWI_BR_RD (R75). -/
def execTwiBrRd (s : State) : Host.Outcome State Fault Refusal := .next (s.respond s.twi.br)

/-! ## The TWI engine -/

/-- Completion of START (R77). -/
def completeStart (s : State) : State :=
  let first := s.twi.phase == .idle
  { s with
      env := s.env.start first
      twi := { s.twi with op := .none, status := startStatus first, phase := .started, int := true }
    }.emit (if first then .start else .rstart)

/-- Completion of STOP (R78): INT is not set, and in IDLE there is no bus event. -/
def completeStop (s : State) : State :=
  let t : Twi := { s.twi with op := .none, phase := .idle, status := statusNoInfo }
  if s.twi.phase = .idle then { s with twi := t } else { s with env := s.env.stop, twi := t }.emit .stop

/-- Completion of SEND_ADDR(b) (R79). -/
def completeAddr (b : Byte) (ans : BusAnswer) (s : State) : State :=
  let a := (s.env.addr b ans).1
  { s with
      env := (s.env.addr b ans).2
      twi := { s.twi with
        op := .none, phase := addrPhase (addrIsRead b) a, status := addrStatus (addrIsRead b) a, int := true }
    }.emit (.addr b a)

/-- Completion of SEND_DATA(b) (R80): the phase is not written. -/
def completeData (b : Byte) (ans : BusAnswer) (s : State) : State :=
  let a := (s.env.write b ans).1
  { s with
      env := (s.env.write b ans).2
      twi := { s.twi with op := .none, status := dataStatus a, int := true }
    }.emit (.write b a)

/-- Completion of RECV(k) (R81). -/
def completeRecv (k : Bool) (ans : BusAnswer) (s : State) : Host.Outcome State Fault Refusal :=
  match s.env.read k ans with
  | none => .fault .slavePointerOutOfRange
  | some (v, e) =>
    .next ({ s with
        env := e
        twi := { s.twi with op := .none, data := v, phase := recvPhase k, status := recvStatus k, int := true }
      }.emit (.read v k))

/-- The TWI engine's step (R76): it has one exactly when an operation is in flight. -/
def engineStep (ans : BusAnswer) (s : State) : Host.Outcome State Fault Refusal :=
  match s.twi.op with
  | .none => .next s
  | .start => .next (completeStart s)
  | .stop => .next (completeStop s)
  | .sendAddr b => .next (completeAddr b ans s)
  | .sendData b => .next (completeData b ans s)
  | .recv k => completeRecv k ans s

end Sys2Proof.Machine
end

