-- ==== Sys2Proof/Machine/Dispatch.lean ====
section
/-! DEFINITION. The meaning of every host access, one arm for each constructor of Instr. -/

namespace Sys2Proof.Machine

/-- What one host access does (R33, R37, R38). -/
def exec (i : Instr) (s : State) : Host.Outcome State Fault Refusal :=
  match i with
  | .twiDisable d => Sys2Proof.Machine.execTwiDisable d s
  | .twiConfig d => Sys2Proof.Machine.execTwiConfig d s
  | .twiStart d => Sys2Proof.Machine.execTwiStart d s
  | .twiStop d => Sys2Proof.Machine.execTwiStop d s
  | .twiXfer d => Sys2Proof.Machine.execTwiXfer d s
  | .twiCmdReserved d => Sys2Proof.Machine.execTwiCmdReserved d s
  | .twiCtrlRd => Sys2Proof.Machine.execTwiCtrlRd s
  | .twiStatusWr d => Sys2Proof.Machine.execTwiStatusWr d s
  | .twiStatusRd => Sys2Proof.Machine.execTwiStatusRd s
  | .twiDataWr d => Sys2Proof.Machine.execTwiDataWr d s
  | .twiDataRd => Sys2Proof.Machine.execTwiDataRd s
  | .twiBrWr d => Sys2Proof.Machine.execTwiBrWr d s
  | .twiBrRd => Sys2Proof.Machine.execTwiBrRd s
  | .dispDigitWr n d => Sys2Proof.Machine.execDispDigitWr n d s
  | .dispDigitRd n => Sys2Proof.Machine.execDispDigitRd n s
  | .dispStatusWr d => Sys2Proof.Machine.execDispStatusWr d s
  | .dispStatusRd => Sys2Proof.Machine.execDispStatusRd s
  | .dispSelWr d => Sys2Proof.Machine.execDispSelWr d s
  | .dispSelRd => Sys2Proof.Machine.execDispSelRd s
  | .dispSegWr d => Sys2Proof.Machine.execDispSegWr d s
  | .dispSegRd => Sys2Proof.Machine.execDispSegRd s
  | .tmrCtrlWr d => Sys2Proof.Machine.execTmrCtrlWr d s
  | .tmrCtrlRd => Sys2Proof.Machine.execTmrCtrlRd s
  | .tmrCountWr d => Sys2Proof.Machine.execTmrCountWr d s
  | .tmrCountRd => Sys2Proof.Machine.execTmrCountRd s
  | .tmrFlagsWr d => Sys2Proof.Machine.execTmrFlagsWr d s
  | .tmrFlagsRd => Sys2Proof.Machine.execTmrFlagsRd s
  | .rsvdWr o d => Sys2Proof.Machine.execRsvdWr o d s
  | .rsvdRd o => Sys2Proof.Machine.execRsvdRd o s

end Sys2Proof.Machine
end

