-- ==== Sys2Proof/Machine/HostPort.lean ====
section
/-! DEFINITION. How a host access reaches the block: an access word (R47, R48), or a load or store at a host address
(R32 to R34). -/

namespace Sys2Proof.Machine

/-- The host performs the access a word spells; a word that spells none is refused by name (R48, V2). -/
def hostWord (w : Word) (s : State) : Host.Outcome State Fault Refusal :=
  match decode w with
  | .ok i => exec i s
  | .error why => .refused (.notAnAccess why)

/-- Some byte of the `size` bytes at `addr` lies in the window BASE+0x0..0xF (R32). -/
abbrev TouchesWindow (p : Params) (addr size : Nat) : Prop :=
  max addr p.base < min (addr + size) (p.base + 16)

/-- A host access of `size` bytes at `addr`, where `word off` is the access word for offset `off`: outside the window
it is no access to the block and leaves it alone (R32), of one byte it is that word's access (R33), and wider it is
refused (R34). -/
def hostAt (addr size : Nat) (word : Offset → Word) (s : State) : Host.Outcome State Fault Refusal :=
  if TouchesWindow s.params addr size then
    if size = 1 then hostWord (word (BitVec.ofNat 4 (addr - s.params.base))) s else .refused .wideAccess
  else .next s

/-- One host request (R33). -/
def hostRequest (r : HostRequest) (s : State) : Host.Outcome State Fault Refusal :=
  match r with
  | .word w => hostWord w s
  | .load addr size => hostAt addr size readWord s
  | .store addr size v => hostAt addr size (fun off => writeWord off v) s

end Sys2Proof.Machine
end

