-- ==== Sys2Proof/Machine/HostScript.lean ====
section
/-! DEFINITION. The host script of R55: evaluating host expressions and taking one statement of a running routine.
Only W, R and POLL access the block; everything else is host computation. -/

namespace Sys2Proof.Machine

/-- A truth value as a host number. -/
def hostBool (b : Bool) : Nat := if b then 1 else 0

/-- A host operator on two numbers (R55). What R55 leaves unstated is a free value (log 12). -/
def HostOp.apply (o : HostOp) (a b : Nat) : Nat :=
  match o with
  | .band => a &&& b
  | .bor => a ||| b
  | .shr => a >>> b
  | .shl => a <<< b
  | .add => a + b
  | .sub => if b ≤ a then a - b else Config.hostSubBelowZero a b
  | .mul => a * b
  | .div => if b = 0 then Config.hostDivByZero a else a / b
  | .mod => if b = 0 then Config.hostModByZero a else a % b
  | .eq => hostBool (a == b)
  | .ne => hostBool (a != b)
  | .gt => hostBool (decide (b < a))

/-- The value of a variable: the latest assignment stands first. -/
def hostVar (vars : List (Nat × Nat)) (x : Nat) : Nat :=
  match vars.lookup x with
  | some v => v
  | none => Config.hostUnassigned x

/-- The value of a host expression (R55). A comparison gives 1 or 0, so any number may stand as a condition
(log 20). -/
def HostExpr.eval (vars : List (Nat × Nat)) : HostExpr → Nat
  | .lit n => n
  | .var x => hostVar vars x
  | .bin o a b => o.apply (a.eval vars) (b.eval vars)
  | .isIn a l => hostBool (l.contains (a.eval vars))

/-- The 8-bit value of a host number: what `W REG, e` writes (R55). -/
def hostByte (n : Nat) : Byte := BitVec.ofNat 8 n

/-- The frame at its next statement. -/
def HostFrame.advance (f : HostFrame) : HostFrame := { f with pc := f.pc + 1 }

/-- The frame with a variable assigned, at its next statement. -/
def HostFrame.assign (f : HostFrame) (x v : Nat) : HostFrame := { f with vars := (x, v) :: f.vars, pc := f.pc + 1 }

/-- The frame at a label; a label that is not there leaves it past its last statement. -/
def HostFrame.goto (f : HostFrame) (l : Nat) : HostFrame :=
  { f with pc := f.code.findIdx fun st => st == .label l }

/-- The frame of a called routine: its arguments are its variables 0, 1, … -/
def HostFrame.entered (code : List HostStmt) (args : List Nat) (x : Nat) (onFail : Option Nat) : HostFrame :=
  { code := code, pc := 0, vars := args.zipIdx.map fun a => (a.2, a.1), result := x, onFail := onFail }

/-- DONE v in a routine called from `callers`: the innermost caller's variable takes v, or the script ends (R55,
R162). -/
def HostCpu.finish (h : HostCpu) (x v : Nat) (callers : List HostFrame) : HostCpu :=
  match callers with
  | [] => { h with frames := [], ended := some (.done v) }
  | g :: rest => { h with frames := { g with vars := (x, v) :: g.vars } :: rest }

/-- FAIL k in a frame called from `callers`: it ends each caller with the same error kind until one named a label
(R55). At that label the caller's $x is as it was and the kind k is kept nowhere: R55 says neither what $x takes then nor
whether the caller can read k (DESIGN CHOICE, log 22). -/
def HostCpu.unwind (h : HostCpu) (k : HostError) (f : HostFrame) : List HostFrame → HostCpu
  | [] => { h with frames := [], ended := some (.failed k) }
  | g :: rest =>
    match f.onFail with
    | some l => { h with frames := g.goto l :: rest }
    | none => h.unwind k g rest

/-- The state with the innermost routine's frame replaced. -/
def State.withFrame (s : State) (f : HostFrame) (callers : List HostFrame) : State :=
  { s with host := { s.host with frames := f :: callers } }

/-- An access of the script, after which the frame is `f` (R55: W, R, POLL). -/
def scriptAccess (w : Word) (f : HostFrame) (callers : List HostFrame) (s : State) :
    Host.Outcome State Fault Refusal :=
  match hostWord w s with
  | .next t => .next (t.withFrame f callers)
  | .fault e => .fault e
  | .refused e => .refused e

/-- One statement of routine frame f, called from `callers` (R55). A read's value is the register's read value in
the state the access sees. DESIGN CHOICE where R55 is silent: a POLL assigns no variable, its `$t` being the
statement's own (log 18); an IF jumps when its condition's number is not 0 (log 20). -/
def scriptStatement (pressed : Bool) (st : HostStmt) (f : HostFrame) (callers : List HostFrame) (s : State) :
    Host.Outcome State Fault Refusal :=
  match st with
  | .w reg e => scriptAccess (writeWord reg (hostByte (e.eval f.vars))) f.advance callers s
  | .r reg x => scriptAccess (readWord reg) (f.assign x (s.readReg reg).toNat) callers s
  | .poll reg m v =>
    let met := ((s.readReg reg).toNat &&& m.eval f.vars) == v.eval f.vars
    scriptAccess (readWord reg) (if met then f.advance else f) callers s
  | .ifGoto c l => .next (s.withFrame (if c.eval f.vars = 0 then f.advance else f.goto l) callers)
  | .label _ => .next (s.withFrame f.advance callers)
  | .done e => .next { s with host := s.host.finish f.result (e.eval f.vars) callers }
  | .fail k => .next { s with host := s.host.unwind k f callers }
  | .call routine args x onFail =>
    match s.host.routines[routine]? with
    | none => .fault .malformedScript
    | some code =>
      .next (s.withFrame (.entered code (args.map fun a => a.eval f.vars) x onFail) (f.advance :: callers))
  | .assign x e => .next (s.withFrame (f.assign x (e.eval f.vars)) callers)
  | .drawButton x => .next (s.withFrame (f.assign x (hostBool pressed)) callers)

/-- The host script takes its next statement; without a running script there is none to take. -/
def scriptStep (pressed : Bool) (s : State) : Host.Outcome State Fault Refusal :=
  match s.host.frames with
  | [] => .next s
  | f :: callers =>
    match f.code[f.pc]? with
    | none => .fault .malformedScript
    | some st => scriptStatement pressed st f callers s

end Sys2Proof.Machine
end

