-- ==== Sys2Proof/Machine/HostRoutines.lean ====
section
/-! DEFINITION. The pseudo-instructions of R56 and the reference host routines of R123 to R131, as data in the script
notation. They are host software, not rules of the block (R5): examples of its use. -/

namespace Sys2Proof.Machine

/-! ## Names -/

/-- TWI_CTRL's offset (R13). -/
def regTwiCtrl : Offset := 0x0
/-- TWI_STATUS's offset (R13). -/
def regTwiStatus : Offset := 0x1
/-- TWI_DATA's offset (R13). -/
def regTwiData : Offset := 0x2
/-- TWI_BR's offset (R13). -/
def regTwiBr : Offset := 0x3
/-- DISP_DIGITn's offset (R13). -/
def regDigit (n : Slot) : Offset := 0b01#2 ++ n
/-- TMR_CTRL's offset (R13). -/
def regTmrCtrl : Offset := 0xB
/-- TMR_FLAGS's offset (R13). -/
def regTmrFlags : Offset := 0xD

/-! ## Pseudo-instructions (R56) -/

/-- `POLL TWI_CTRL, 0x80, 0x80`. -/
def pollInt : HostStmt := .poll regTwiCtrl (.lit 0x80) (.lit 0x80)

/-- `TWI.ENABLE br`. -/
def pseudoEnable (br : HostExpr) : List HostStmt := [.w regTwiBr br, .w regTwiCtrl (.lit 0x04)]

/-- `TWI.START`. -/
def pseudoStart : List HostStmt := [.w regTwiCtrl (.lit 0xA4), pollInt]

/-- `TWI.SEND e`. -/
def pseudoSend (e : HostExpr) : List HostStmt := [.w regTwiData e, .w regTwiCtrl (.lit 0x84), pollInt]

/-- `TWI.RECV_ACK`. -/
def pseudoRecvAck : List HostStmt := [.w regTwiCtrl (.lit 0xC4), pollInt]

/-- `TWI.RECV_NACK`. -/
def pseudoRecvNack : List HostStmt := [.w regTwiCtrl (.lit 0x84), pollInt]

/-- `TWI.STOP`. -/
def pseudoStop : List HostStmt := [.w regTwiCtrl (.lit 0x94), .poll regTwiCtrl (.lit 0x10) (.lit 0x00)]

/-- `TWI.DISABLE`. -/
def pseudoDisable : List HostStmt := [.w regTwiCtrl (.lit 0x00)]

/-- `TWI.STATUS -> $s`. -/
def pseudoStatus (x : Nat) : List HostStmt := [.r regTwiStatus x]

/-- `DISP.PUT n, e`. -/
def pseudoPut (n : Slot) (e : HostExpr) : List HostStmt := [.w (regDigit n) e]

/-- `TMR.START cs`. -/
def pseudoTimerStart (cs : HostExpr) : List HostStmt := [.w regTmrCtrl (.bin .bor (.lit 0x80) cs)]

/-- `TMR.ACK`. -/
def pseudoTimerAck : List HostStmt := [.w regTmrFlags (.lit 0x03)]

/-! ## BCD (R129) -/

/-- dec(x) = (x & 0x0F) + ((x >> 4) & 0x07) * 10. -/
def bcdDec (x : Nat) : Nat := (x &&& 0x0F) + ((x >>> 4) &&& 0x07) * 10

/-- enc(v) = ((v / 10) << 4) | (v % 10). R129 gives it for v in 0..79; above 79 the same formula is the model's choice
(DESIGN CHOICE, log 21). -/
def bcdEnc (v : Nat) : Nat := ((v / 10) <<< 4) ||| (v % 10)

/-- dec as a host expression. -/
def exprDec (x : HostExpr) : HostExpr :=
  .bin .add (.bin .band x (.lit 0x0F)) (.bin .mul (.bin .band (.bin .shr x (.lit 4)) (.lit 0x07)) (.lit 10))

/-- enc as a host expression, the formula of R129 for every number: above 79, where R129 states no value, that is the
model's choice (DESIGN CHOICE, log 21). -/
def exprEnc (v : HostExpr) : HostExpr :=
  .bin .bor (.bin .shl (.bin .div v (.lit 10)) (.lit 4)) (.bin .mod v (.lit 10))

/-! ## Routines

A routine's number is its place in `routineTable`; its arguments are variables 0, 1, …; a routine with nothing to
return answers 0. -/

/-- `GOTO L`. -/
def goto (l : Nat) : HostStmt := .ifGoto (.lit 1) l

/-- `DONE ok`. -/
def doneOk : HostStmt := .done (.lit 0)

/-- Routine 0, end() (R123). -/
def routineEnd : List HostStmt :=
  [.w regTwiCtrl (.lit 0x94), .r regTwiCtrl 9,
   .ifGoto (.bin .eq (.bin .band (.var 9) (.lit 0x80)) (.lit 0x80)) 1,
   .poll regTwiCtrl (.lit 0x10) (.lit 0x00), doneOk,
   .label 1, .w regTwiCtrl (.lit 0x00), .w regTwiCtrl (.lit 0x04), doneOk]

/-- `CALL end()`. -/
def callEnd : HostStmt := .call 0 [] 9 none

/-- Routine 1, begin(a7, rw) (R124): variable 0 is a7, variable 1 is rw. The status expected of the address phase is
0x18 for rw = 0 and 0x40 otherwise. -/
def routineBegin : List HostStmt :=
  pseudoStart ++ pseudoStatus 2 ++
  [.ifGoto (.bin .eq (.isIn (.var 2) [0x08, 0x10]) (.lit 0)) 1] ++
  pseudoSend (.bin .bor (.bin .shl (.var 0) (.lit 1)) (.var 1)) ++ pseudoStatus 2 ++
  [.ifGoto (.bin .eq (.var 1) (.lit 0)) 3,
   .ifGoto (.bin .ne (.var 2) (.lit 0x40)) 2, doneOk,
   .label 3, .ifGoto (.bin .ne (.var 2) (.lit 0x18)) 2, doneOk,
   .label 1, callEnd, .fail .startFailed,
   .label 2, callEnd, .fail .addrNack]

/-- Routine 2, writeByte(b) (R125): answers 1 for ack and 0 for nack, and fails otherwise. -/
def routineWriteByte : List HostStmt :=
  pseudoSend (.var 0) ++ pseudoStatus 1 ++
  [.ifGoto (.bin .eq (.var 1) (.lit 0x28)) 1, .ifGoto (.bin .eq (.var 1) (.lit 0x30)) 2, .fail .badStatus,
   .label 1, .done (.lit 1), .label 2, .done (.lit 0)]

/-- The pair (byte, ack|nack) that readByte returns (R126), as one host number: the byte, with bit 8 set for ack
(DESIGN CHOICE, log 17). -/
def exprByteAck (byte : HostExpr) (ack : Bool) : HostExpr :=
  .bin .bor byte (.lit (if ack then 0x100 else 0x000))

/-- The byte of the pair readByte returns. -/
def exprByteOf (pair : HostExpr) : HostExpr := .bin .band pair (.lit 0xFF)

/-- Routine 3, readByte(expectAck) (R126): answers the byte with the ack or nack, and fails on an unexpected status. -/
def routineReadByte : List HostStmt :=
  [.ifGoto (.bin .eq (.var 0) (.lit 0)) 1] ++ pseudoRecvAck ++
  [.r regTwiData 1] ++ pseudoStatus 2 ++
  [.ifGoto (.bin .ne (.var 2) (.lit 0x50)) 2, .done (exprByteAck (.var 1) true), .label 1] ++ pseudoRecvNack ++
  [.r regTwiData 1] ++ pseudoStatus 2 ++
  [.ifGoto (.bin .ne (.var 2) (.lit 0x58)) 2, .done (exprByteAck (.var 1) false),
   .label 2, .fail .badStatus]

/-- Routine 4, writeRegister(addr, value) (R127): variable 0 is addr, variable 1 is value. begin closes the
transaction itself when it fails. -/
def routineWriteRegister (rtcAddr : Nat) : List HostStmt :=
  [.call 1 [.lit rtcAddr, .lit 0] 9 none,
   .call 2 [.var 0] 2 (some 2), .ifGoto (.bin .ne (.var 2) (.lit 1)) 1,
   .call 2 [.var 1] 2 (some 2), .ifGoto (.bin .ne (.var 2) (.lit 1)) 1,
   callEnd, doneOk,
   .label 1, callEnd, .fail .dataNack,
   .label 2, callEnd, .fail .badStatus]

/-- Routine 5, readRegister(addr) (R128): variable 0 is addr. -/
def routineReadRegister (rtcAddr : Nat) : List HostStmt :=
  [.call 1 [.lit rtcAddr, .lit 0] 9 none,
   .call 2 [.var 0] 2 (some 2), .ifGoto (.bin .ne (.var 2) (.lit 1)) 1,
   .call 1 [.lit rtcAddr, .lit 1] 9 none,
   .call 3 [.lit 0] 3 (some 2),
   callEnd, .done (exprByteOf (.var 3)),
   .label 1, callEnd, .fail .dataNack,
   .label 2, callEnd, .fail .badStatus]

/-- Routine 6, the startup adjustment (R131). -/
def routineStartup : List HostStmt :=
  [.call 5 [.lit 0] 0 none, .call 4 [.lit 0, .bin .band (.var 0) (.lit 0x7F)] 9 none,
   .call 5 [.lit 2] 1 none, .call 4 [.lit 2, .bin .band (.var 1) (.lit 0xBF)] 9 none, doneOk]

/-- Routine 7, one iteration of the Time Controller (R130): variable 0 is m, variable 1 is h. A read error skips to
the delay (label 9), which takes no step here. -/
def routineTimeController (threshold : Nat) : List HostStmt :=
  [.call 5 [.lit 1] 2 (some 9), .call 5 [.lit 2] 3 (some 9),
   .assign 0 (exprDec (.var 2)), .assign 1 (exprDec (.var 3)),
   .drawButton 4, .ifGoto (.bin .eq (.var 4) (.lit 0)) 3,
   .assign 0 (.bin .add (.var 0) (.lit 1)),
   .ifGoto (.bin .ne (.var 0) (.lit 60)) 1,
   .assign 0 (.lit 0), .assign 1 (.bin .add (.var 1) (.lit 1)),
   .label 1, .ifGoto (.bin .eq (.bin .gt (.var 1) (.lit threshold)) (.lit 0)) 2, .assign 1 (.lit 0),
   .label 2, .call 4 [.lit 1, exprEnc (.var 0)] 9 none, .call 4 [.lit 2, exprEnc (.var 1)] 9 none,
   .label 3] ++
  pseudoPut 0 (.bin .div (.var 1) (.lit 10)) ++ pseudoPut 1 (.bin .mod (.var 1) (.lit 10)) ++
  pseudoPut 2 (.bin .div (.var 0) (.lit 10)) ++ pseudoPut 3 (.bin .mod (.var 0) (.lit 10)) ++
  [.label 9, doneOk]

/-- The reference routines (R123 to R131) for a slave address and an hour threshold. -/
def routineTable (rtcAddr threshold : Nat) : List (List HostStmt) :=
  [routineEnd, routineBegin, routineWriteByte, routineReadByte, routineWriteRegister rtcAddr,
   routineReadRegister rtcAddr, routineStartup, routineTimeController threshold]

/-- A host that is about to run a program with a table of routines. -/
def HostCpu.running (routines : List (List HostStmt)) (program : List HostStmt) : HostCpu :=
  { routines := routines, frames := [.entered program [] 0 none], ended := none }

/-- The boot order of R151, steps 1 to 3: TWI.ENABLE, TMR.START, the startup adjustment. -/
def bootProgram (br cs : Nat) : List HostStmt :=
  pseudoEnable (.lit br) ++ pseudoTimerStart (.lit cs) ++ [.call 6 [] 9 none, doneOk]

end Sys2Proof.Machine
end

