-- ==== Sys2Proof/Machine/Agents.lean ====
section
/-! DEFINITION. One move of one agent (R4), and how an access word is placed as the host's next access. -/

namespace Sys2Proof.Machine

/-- The bus environment's own step: a real RTC's clock (R122). -/
def rtcClockStep (seconds minutes hours : Byte) (s : State) : State :=
  { s with env := s.env.clock seconds minutes hours }

/-- One move of one agent (R4). A move of an agent that has no step changes nothing (log 1). -/
def runMove (m : Move) (s : State) : Host.Outcome State Fault Refusal :=
  match m with
  | .host r => hostRequest r s
  | .script pressed => scriptStep pressed s
  | .twiEngine ans => engineStep ans s
  | .timer => .next (timerStep s)
  | .display => takeTick s
  | .rtcClock seconds minutes hours => .next (rtcClockStep seconds minutes hours s)

/-- The next move of the agenda, in the state from which that move is taken away. With no move pending no agent
moves (log 1). -/
def nextMove (s : State) : Host.Outcome State Fault Refusal :=
  match s.agenda with
  | [] => .next s
  | m :: rest => runMove m { s with agenda := rest }

/-- The access word a host places as its next access (log 2). -/
def State.placeWord (s : State) (w : Word) : State := { s with agenda := .host (.word w) :: s.agenda }

end Sys2Proof.Machine
end

