-- ==== Sys2Proof/Machine/Step.lean ====
section
/-! DEFINITION. The step: a legal state takes its next move (R40); any other state is rejected (V11). -/

namespace Sys2Proof.Machine

/-- One step of the machine. -/
def step (s : State) : Host.Outcome State Fault Refusal :=
  if s.Legal then nextMove s else .fault .illegalLaunchState

/-- The state in which the host's next access is the word w (its low nbits bits): the next step performs it (log 2). -/
def State.withFetchWord (s : State) (nbits w : Nat) : State := s.placeWord (BitVec.ofNat 16 (w % 2 ^ nbits))

end Sys2Proof.Machine
end

