-- ==== Sys2Proof/Safety.lean ====
section
/-! DEFINITION. The terms statements are made in: which words spell an access, the reachable-state invariant, the bus
grammar of R83, runs, and what it means to assume BUS_PROGRESS of one (R113). -/

namespace Sys2Proof

/-! ## Accesses -/

/-- Every word of a table row (word & mask == match) spells the access `i` gives for its fields (R52). -/
def SpelledBy (pattern mask : Word) (i : Word → Instr) : Prop :=
  ∀ w : Word, w &&& mask = pattern → decode w = .ok (i w)

/-- The read accesses (R37): every row of R52 whose W field is 0. -/
def Instr.isRead : Instr → Bool
  | .twiCtrlRd | .twiStatusRd | .twiDataRd | .twiBrRd => true
  | .dispDigitRd _ | .dispStatusRd | .dispSelRd | .dispSegRd => true
  | .tmrCtrlRd | .tmrCountRd | .tmrFlagsRd | .rsvdRd _ => true
  | .twiDisable _ | .twiConfig _ | .twiStart _ | .twiStop _ | .twiXfer _ | .twiCmdReserved _ => false
  | .twiStatusWr _ | .twiDataWr _ | .twiBrWr _ => false
  | .dispDigitWr _ _ | .dispStatusWr _ | .dispSelWr _ | .dispSegWr _ => false
  | .tmrCtrlWr _ | .tmrCountWr _ | .tmrFlagsWr _ | .rsvdWr _ _ => false

/-- The offset of the register an access names (R13, R47). -/
def Instr.offset (i : Instr) : Offset := fieldOff (encode i)

end Sys2Proof

namespace Sys2Proof.Machine

/-! ## The reachable-state invariant -/

/-- A code TWI_STATUS can show: those of R57 but 0x38, which is never produced (R84). -/
abbrev StatusCode (v : Byte) : Prop :=
  v ∈ [0x08, 0x10, 0x18, 0x20, 0x28, 0x30, 0x40, 0x48, 0x50, 0x58, 0xF8, 0x00]

/-- No digit-select line, or exactly one (R25). -/
abbrev SelectOneHot (l : BitVec 4) : Prop := l = 0x1 ∨ l = 0x2 ∨ l = 0x4 ∨ l = 0x8

/-- The phase in which the operation in flight was issued (R62): nothing but a disable changes the phase before it
completes. -/
def Twi.OpFitsPhase (t : Twi) : Prop :=
  match t.op with
  | .none => True
  | .start | .stop => t.phase ≠ .mr
  | .sendAddr _ => t.phase = .started
  | .sendData _ => t.phase = .mt
  | .recv _ => t.phase = .mr

/-- The phase a bus that was in phase p is in after an event, if the grammar of R83 has that event there. -/
def Phase.after (p : Phase) (e : BusEvent) : Option Phase :=
  match p, e with
  | .idle, .start => some .started
  | .started, .addr b a =>
    if a then (if addrIsRead b then some .mr else some .mt) else some .addrNack
  | .mt, .write _ _ => some .mt
  | .mr, .read _ k => if k then some .mr else some .mrEnd
  | .started, .rstart | .addrNack, .rstart | .mt, .rstart | .mrEnd, .rstart => some .started
  | .started, .stop | .addrNack, .stop | .mt, .stop | .mrEnd, .stop => some .idle
  | .started, .release | .addrNack, .release | .mt, .release | .mr, .release | .mrEnd, .release => some .idle
  | _, _ => none

/-- The phase a bus history that starts idle ends in, if every event stands where R83 allows it. -/
def busPhase (h : List BusEvent) : Option Phase :=
  h.foldl (fun p e => p.bind fun q => q.after e) (some .idle)

/-- What every state of a run keeps: the launch preconditions (R19, R21, R29), R25, R57 with R84, and the bus
history's agreement with TWI.phase (R83). -/
structure State.Inv (s : State) : Prop where
  legal : s.Legal
  status : StatusCode s.twi.status
  select : s.disp.sel = 0x0 ∨ SelectOneHot s.disp.sel
  opFits : s.twi.OpFitsPhase
  history : busPhase s.history = some s.twi.phase

/-! ## The bus grammar of R83, written as R83 writes it -/

/-- `Seg` of R83, complete. -/
inductive Segment : List BusEvent → Prop
  | empty : Segment []
  | nack (b : Byte) : Segment [.addr b false]
  | writes (b : Byte) (ws : List BusEvent) :
      addrIsRead b = false → (∀ e ∈ ws, ∃ v a, e = .write v a) → Segment (.addr b true :: ws)
  | reads (b : Byte) (rs : List BusEvent) (v : Byte) :
      addrIsRead b = true → (∀ e ∈ rs, ∃ u, e = .read u true) →
      Segment (.addr b true :: (rs ++ [.read v false]))

/-- `ADDR(b, 1) READ(.., 1)*` with b[0] = 1: a read still being acknowledged, which only RELEASE may end (R83). -/
inductive ReadingSegment : List BusEvent → Prop
  | reads (b : Byte) (rs : List BusEvent) :
      addrIsRead b = true → (∀ e ∈ rs, ∃ u, e = .read u true) → ReadingSegment (.addr b true :: rs)

/-- `START Seg (RSTART Seg)*` (R83). -/
inductive OpenTransaction : List BusEvent → Prop
  | start (g : List BusEvent) : Segment g → OpenTransaction (.start :: g)
  | rstart (o g : List BusEvent) : OpenTransaction o → Segment g → OpenTransaction (o ++ .rstart :: g)

/-- An open transaction whose last segment is a read still being acknowledged (R83). -/
inductive ReadingTransaction : List BusEvent → Prop
  | start (g : List BusEvent) : ReadingSegment g → ReadingTransaction (.start :: g)
  | rstart (o g : List BusEvent) :
      OpenTransaction o → ReadingSegment g → ReadingTransaction (o ++ .rstart :: g)

/-- A sequence of complete transactions (R83): each ends in STOP or RELEASE, and one that breaks off a read only in
RELEASE. -/
inductive CompleteTransactions : List BusEvent → Prop
  | none : CompleteTransactions []
  | stop (h o : List BusEvent) :
      CompleteTransactions h → OpenTransaction o → CompleteTransactions (h ++ (o ++ [.stop]))
  | release (h o : List BusEvent) :
      CompleteTransactions h → OpenTransaction o → CompleteTransactions (h ++ (o ++ [.release]))
  | releaseReading (h o : List BusEvent) :
      CompleteTransactions h → ReadingTransaction o → CompleteTransactions (h ++ (o ++ [.release]))

/-- A bus event history R83 allows: complete transactions, possibly followed by one open transaction. -/
def GrammaticalHistory (h : List BusEvent) : Prop :=
  CompleteTransactions h ∨
    ∃ c o, h = c ++ o ∧ CompleteTransactions c ∧ (OpenTransaction o ∨ ReadingTransaction o)

/-! ## Runs -/

/-- The word of the access a host request makes, if it makes one. -/
def HostRequest.accessWord (p : Params) : HostRequest → Option Word
  | .word w => some w
  | .load addr size => if TouchesWindow p addr size then some (readWord (BitVec.ofNat 4 (addr - p.base))) else none
  | .store addr size v =>
    if TouchesWindow p addr size then some (writeWord (BitVec.ofNat 4 (addr - p.base)) v) else none

/-- The word of the access a script statement makes, if it makes one (R55: W, R, POLL). -/
def HostStmt.accessWord (vars : List (Nat × Nat)) : HostStmt → Option Word
  | .w reg e => some (writeWord reg (hostByte (e.eval vars)))
  | .r reg _ | .poll reg _ _ => some (readWord reg)
  | .ifGoto _ _ | .label _ | .done _ | .fail _ | .call _ _ _ _ | .assign _ _ | .drawButton _ => none

/-- The word of the access a move makes in a state, if it makes one. -/
def Move.accessWord (m : Move) (s : State) : Option Word :=
  match m with
  | .host r => r.accessWord s.params
  | .script _ =>
    match s.host.frames with
    | [] => none
    | f :: _ => f.code[f.pc]?.bind fun st => st.accessWord f.vars
  | .twiEngine _ | .timer | .display | .rtcClock _ _ _ => none

/-- The move is a TWI_DISABLE: the one access that takes an operation in flight away (R68). -/
def Move.Disables (m : Move) (s : State) : Prop :=
  ∃ w d, m.accessWord s = some w ∧ decode w = .ok (.twiDisable d)

/-- A run without end: the schedule's move n, as the one move pending, leads from r n to r (n + 1). A list of moves
to come is finite, so this is how a statement about a whole run is made (log 16). -/
def IsRun (r : Nat → State) (moves : Nat → Move) : Prop :=
  ∀ n, step { r n with agenda := [moves n] } = .next (r (n + 1))

/-- BUS_PROGRESS assumed of a run (R7, R113): the TWI engine is weakly fair. From no step boundary on is an operation
in flight for ever while the engine never moves. It speaks of every operation the run ever issues. -/
def BusProgress (r : Nat → State) (moves : Nat → Move) : Prop :=
  ∀ n, ∃ m, n ≤ m ∧ ((r m).twi.op = .none ∨ ∃ ans, moves m = .twiEngine ans)

/-- An engine move stands among the moves to come, so that an operation in flight now is completed or abandoned
within them. -/
def State.EngineMoveAhead (s : State) : Prop := ∃ ans, Move.twiEngine ans ∈ s.agenda

/-- A move that is no move of the host or of its script (R4). -/
def Move.isInternal : Move → Bool
  | .twiEngine _ | .timer | .display | .rtcClock _ _ _ => true
  | .host _ | .script _ => false

/-- A move of the TWI engine. -/
def Move.isEngine : Move → Bool
  | .twiEngine _ => true
  | .timer | .display | .rtcClock _ _ _ | .host _ | .script _ => false

/-- A move of the display or timer unit, or of the environment's own clock. -/
def Move.isBackground : Move → Bool
  | .timer | .display | .rtcClock _ _ _ => true
  | .twiEngine _ | .host _ | .script _ => false

end Sys2Proof.Machine
end

