-- ==== Sys2Proof/Certificates/Slice0/Obligations.lean ====
section
/-! DEFINITION. The statements for the provers. Each docstring names the rules of spec/ it rests on. -/

open Sys2Proof Sys2Proof.Machine

/-! ## Access words and the step -/

/-- When the next move is the host's access word w and w spells access i, a step of a legal state is exec of i on the
state whose agenda that move has left; and a word placed by withFetchWord is that next move (the model's convention,
log 2). -/
def Obligations.StepRunsDecodedAccess : Prop :=
  (∀ (s : State) (w : Word) (i : Instr) (rest : List Move),
    s.Legal → s.agenda = .host (.word w) :: rest → decode w = .ok i →
    step s = exec i { s with agenda := rest }) ∧
  (∀ (s : State) (w : Nat) (i : Instr),
    s.Legal → decodeTableWord 16 w = some i → step (s.withFetchWord 16 w) = exec i s)

/-- R48: exactly the words whose Z field is not 0, and the read words whose DATA field is not 0, spell no access, and a
step that meets one refuses it by name. -/
def Obligations.NonAccessWordsAreRefused : Prop :=
  ∀ w : Word,
    ((w &&& 0x7000 ≠ 0 ∨ (w &&& 0x8000 = 0 ∧ w &&& 0x00FF ≠ 0)) ↔ ∃ why, decode w = .error why) ∧
    ∀ (s : State) (rest : List Move) (why : NotAccess),
      s.Legal → s.agenda = .host (.word w) :: rest → decode w = .error why →
      step s = .refused (.notAnAccess why)

/-- Decoding the word of a well-formed access gives that access back, with every operand at every value. -/
def Obligations.DecodeOfEncode : Prop :=
  ∀ i : Instr, i.wellFormed = true → decode (encode i) = .ok i

/-- A word that spells an access is the word that access encodes to, and the access is well formed: no bit of a word is
dropped. -/
def Obligations.EncodeOfDecode : Prop :=
  ∀ (w : Word) (i : Instr), decode w = .ok i → encode i = w ∧ i.wellFormed = true

/-- R52: a word matches row k of the opcode table exactly when it decodes to an access of that row; no word matches two
rows; and a word that matches none is refused. -/
def Obligations.OpcodeRowsDecideDecoding : Prop :=
  opcodeTable.length = 29 ∧
  ∀ w : Word,
    (∀ (k : Nat) (r : OpcodeRow), opcodeTable[k]? = some r →
      (r.matchesWord w = true ↔ ∃ i, decode w = .ok i ∧ i.rowIndex = k)) ∧
    (∀ (j k : Nat) (q r : OpcodeRow), opcodeTable[j]? = some q → opcodeTable[k]? = some r →
      q.matchesWord w = true → r.matchesWord w = true → j = k) ∧
    ((∀ r ∈ opcodeTable, r.matchesWord w = false) ↔ ∃ why, decode w = .error why)

/-- The words of the vectors of spec/95 section 2.2 decode as that table says. -/
def Obligations.SampleWordsDecode : Prop :=
  decodeTableWord 16 0x8504 = some (.dispDigitWr 1 0x04) ∧
  decodeTableWord 16 0x0600 = some (.dispDigitRd 2) ∧
  decodeTableWord 16 0x0601 = none ∧
  decodeTableWord 16 0x9000 = none ∧
  decodeTableWord 16 0x8F12 = some (.rsvdWr 1 0x12) ∧
  decodeTableWord 16 0x0E00 = some (.rsvdRd 0) ∧
  decodeTableWord 16 0x80A4 = some (.twiStart 0xA4) ∧
  decodeTableWord 16 0x80E4 = some (.twiStart 0xE4) ∧
  decodeTableWord 16 0x80C4 = some (.twiXfer 0xC4) ∧
  decodeTableWord 16 0x80F4 = some (.twiCmdReserved 0xF4) ∧
  decodeTableWord 16 0x8044 = some (.twiConfig 0x44) ∧
  decodeTableWord 16 0x80FB = some (.twiDisable 0xFB) ∧
  decodeTableWord 16 0x8B83 = some (.tmrCtrlWr 0x83)

/-- R32 to R34: a 1-byte load or store inside the window is the access the word for its offset spells, an access that
touches no byte of the window leaves the block alone, and one of 2 or more bytes that touches it is refused. That one
which touches the window only in part is refused too, and that host addresses do not wrap, is the model's reading of R34
(log 14). -/
def Obligations.HostAddressesReachRegisters : Prop :=
  ∀ s : State,
    (∀ (off : Offset) (v : Byte),
      hostRequest (.load (s.params.base + off.toNat) 1) s = hostWord (readWord off) s ∧
      hostRequest (.store (s.params.base + off.toNat) 1 v) s = hostWord (writeWord off v) s) ∧
    (∀ (addr size : Nat) (v : Byte),
      (addr + size ≤ s.params.base ∨ s.params.base + 16 ≤ addr) →
      hostRequest (.load addr size) s = .next s ∧ hostRequest (.store addr size v) s = .next s) ∧
    (∀ (addr size : Nat) (v : Byte),
      2 ≤ size → s.params.base < addr + size → addr < s.params.base + 16 →
      hostRequest (.load addr size) s = .refused .wideAccess ∧
      hostRequest (.store addr size v) s = .refused .wideAccess)

/-! ## TWI commands -/

/-- R59 with R60, R61, R62: a TWI_CTRL write is the cascade of R59, with the legality table of R62 written out. -/
def Obligations.CtrlWriteDispatch : Prop :=
  ∀ (d : Byte) (s : State),
    hostWord (writeWord 0x0 d) s =
      if d.getLsbD 2 = false then exec (.twiDisable d) s
      else if s.twi.op ≠ .none then .next s
      else
        let u : Twi := { s.twi with en := true, ea := d.getLsbD 6 }
        let issued (o : TwiOp) : Twi := { u with op := o, int := false, status := 0xF8 }
        let refused : Twi := { u with int := true, status := 0x00 }
        .next { s with
          twi :=
            if d.getLsbD 7 = false then u
            else
              match d.getLsbD 5, d.getLsbD 4 with
              | true, false => if u.phase = .mr then refused else issued .start
              | false, true => if u.phase = .mr then refused else issued .stop
              | false, false =>
                match u.phase with
                | .idle => refused
                | .started => issued (.sendAddr u.data)
                | .addrNack => refused
                | .mt => issued (.sendData u.data)
                | .mr => issued (.recv (d.getLsbD 6))
                | .mrEnd => refused
              | true, true => refused }

/-- R63: TWI_START issues a START except in MR, where it is illegal; STA reads 1 while it is in flight, and its
completion reports 0x08 from IDLE and 0x10 from an owned phase. Ignored while busy (R59). -/
def Obligations.TwiStartIssuesStart : Prop :=
  SpelledBy 0x80A4 0xFFB4 (fun w => .twiStart (fieldData w)) ∧
  ∀ (d : Byte) (s : State),
    (s.twi.op ≠ .none → exec (.twiStart d) s = .next s) ∧
    (s.twi.op = .none → s.twi.phase = .mr →
      exec (.twiStart d) s =
        .next { s with twi := { s.twi with int := true, status := 0x00, en := true, ea := d.getLsbD 6 } }) ∧
    (s.twi.op = .none → s.twi.phase ≠ .mr →
      ∃ t, exec (.twiStart d) s = .next t ∧
        t = { s with
          twi := { s.twi with
            op := .start, int := false, status := 0xF8, en := true, ea := d.getLsbD 6 } } ∧
        t.twi.ctrlValue.getLsbD 5 = true ∧
        ∀ ans, ∃ u, engineStep ans t = .next u ∧
          u.twi.status = (if s.twi.phase = .idle then 0x08 else 0x10) ∧ u.twi.phase = .started)

/-- R64: TWI_STOP issues a STOP except in MR, where it is illegal; STO reads 1 until it has completed, its completion
does not set INT, and a STOP issued in IDLE completes with no bus event. Ignored while busy (R59). -/
def Obligations.TwiStopIssuesStop : Prop :=
  SpelledBy 0x8094 0xFFB4 (fun w => .twiStop (fieldData w)) ∧
  ∀ (d : Byte) (s : State),
    (s.twi.op ≠ .none → exec (.twiStop d) s = .next s) ∧
    (s.twi.op = .none → s.twi.phase = .mr →
      exec (.twiStop d) s =
        .next { s with twi := { s.twi with int := true, status := 0x00, en := true, ea := d.getLsbD 6 } }) ∧
    (s.twi.op = .none → s.twi.phase ≠ .mr →
      ∃ t, exec (.twiStop d) s = .next t ∧
        t = { s with
          twi := { s.twi with
            op := .stop, int := false, status := 0xF8, en := true, ea := d.getLsbD 6 } } ∧
        t.twi.ctrlValue.getLsbD 4 = true ∧
        ∀ ans, ∃ u, engineStep ans t = .next u ∧ u.twi.int = false ∧ u.twi.ctrlValue.getLsbD 4 = false ∧
          u.history = s.history ++ (if s.twi.phase = .idle then [] else [.stop]))

/-- R65: TWI_XFER transmits TWI_DATA as an address byte in STARTED and as a data byte in MT, receives with the
acknowledge bit of the same write in MR, and is illegal in IDLE, ADDR_NACK and MR_END; TWI_DATA cannot change while
what it issued is in flight. Ignored while busy (R59). -/
def Obligations.TwiXferByPhase : Prop :=
  SpelledBy 0x8084 0xFFB4 (fun w => .twiXfer (fieldData w)) ∧
  ∀ (d : Byte) (s : State),
    (s.twi.op ≠ .none → exec (.twiXfer d) s = .next s) ∧
    (s.twi.op = .none →
      ∃ t, exec (.twiXfer d) s = .next { s with twi := t } ∧
        t.en = true ∧ t.ea = d.getLsbD 6 ∧ t.wc = s.twi.wc ∧ t.data = s.twi.data ∧ t.br = s.twi.br ∧
        t.phase = s.twi.phase ∧
        (s.twi.phase = .started → t.op = .sendAddr s.twi.data ∧ t.int = false ∧ t.status = 0xF8) ∧
        (s.twi.phase = .mt → t.op = .sendData s.twi.data ∧ t.int = false ∧ t.status = 0xF8) ∧
        (s.twi.phase = .mr → t.op = .recv (d.getLsbD 6) ∧ t.int = false ∧ t.status = 0xF8) ∧
        (s.twi.phase = .idle ∨ s.twi.phase = .addrNack ∨ s.twi.phase = .mrEnd →
          t.op = .none ∧ t.int = true ∧ t.status = 0x00) ∧
        (t.op ≠ .none → ∀ e, ∃ u, exec (.twiDataWr e) { s with twi := t } = .next u ∧ u.twi.data = s.twi.data))

/-- R66: TWI_CMD_RESERVED is refused as illegal in every phase, which it leaves unchanged. Ignored while busy (R59). -/
def Obligations.TwiCmdReservedIsIllegal : Prop :=
  SpelledBy 0x80B4 0xFFB4 (fun w => .twiCmdReserved (fieldData w)) ∧
  ∀ (d : Byte) (s : State),
    (s.twi.op ≠ .none → exec (.twiCmdReserved d) s = .next s) ∧
    (s.twi.op = .none →
      exec (.twiCmdReserved d) s =
        .next { s with twi := { s.twi with int := true, status := 0x00, en := true, ea := d.getLsbD 6 } })

/-- R67: TWI_CONFIG sets EN and EA and leaves INT, WC and TWI_STATUS; it is ignored while an operation is in flight. -/
def Obligations.TwiConfigSetsEnAndEa : Prop :=
  SpelledBy 0x8004 0xFF84 (fun w => .twiConfig (fieldData w)) ∧
  ∀ (d : Byte) (s : State),
    (s.twi.op ≠ .none → exec (.twiConfig d) s = .next s) ∧
    (s.twi.op = .none →
      exec (.twiConfig d) s = .next { s with twi := { s.twi with en := true, ea := d.getLsbD 6 } })

/-- R68: TWI_DISABLE releases an owned bus, abandons the operation in flight at any time (it never completes), and
resets the TWI flags; TWI_DATA and TWI_BR are unchanged. That an engine move after it changes nothing is the model's
form of "never completes" (log 1). -/
def Obligations.TwiDisableReleases : Prop :=
  SpelledBy 0x8000 0xFF04 (fun w => .twiDisable (fieldData w)) ∧
  ∀ (d : Byte) (s : State),
    ∃ t, exec (.twiDisable d) s = .next t ∧
      t = { s with
        twi := { s.twi with
          op := .none, phase := .idle, int := false, wc := false, en := false, ea := d.getLsbD 6, status := 0xF8 }
        env := if s.twi.phase = .idle then s.env else s.env.release
        history := s.history ++ (if s.twi.phase = .idle then [] else [.release]) } ∧
      ∀ ans, engineStep ans t = .next t

/-! ## The other TWI registers -/

/-- R71, R105: writes of TWI_STATUS and TMR_COUNT are ignored. -/
def Obligations.StatusAndCountIgnoreWrites : Prop :=
  SpelledBy 0x8100 0xFF00 (fun w => .twiStatusWr (fieldData w)) ∧
  SpelledBy 0x8C00 0xFF00 (fun w => .tmrCountWr (fieldData w)) ∧
  ∀ (d : Byte) (s : State), exec (.twiStatusWr d) s = .next s ∧ exec (.tmrCountWr d) s = .next s

/-- R39: a read of a reserved offset returns 0x00, a write to one is ignored, the reserved bits of every register read
0, and their written values are ignored: two writes that differ only in reserved bits do the same. -/
def Obligations.ReservedSpaceReadsZero : Prop :=
  SpelledBy 0x8E00 0xFE00 (fun w => .rsvdWr (w.extractLsb' 8 1) (fieldData w)) ∧
  SpelledBy 0x0E00 0xFEFF (fun w => .rsvdRd (w.extractLsb' 8 1)) ∧
  ∀ (o : BitVec 1) (d : Byte) (s : State),
    exec (.rsvdWr o d) s = .next s ∧
    exec (.rsvdRd o) s = .next { s with readLog := s.readLog ++ [0x00] } ∧
    s.readReg 0x0 &&& 0x03 = 0 ∧ s.readReg 0x8 &&& 0x7C = 0 ∧ s.readReg 0x9 &&& 0xF0 = 0 ∧
    s.readReg 0xB &&& 0x38 = 0 ∧ s.readReg 0xD &&& 0xFC = 0 ∧
    ∀ e : Byte,
      (d &&& 0xFC = e &&& 0xFC → hostWord (writeWord 0x0 d) s = hostWord (writeWord 0x0 e) s) ∧
      (d &&& 0x83 = e &&& 0x83 → hostWord (writeWord 0x8 d) s = hostWord (writeWord 0x8 e) s) ∧
      (d &&& 0x0F = e &&& 0x0F → hostWord (writeWord 0x9 d) s = hostWord (writeWord 0x9 e) s) ∧
      (d &&& 0xC7 = e &&& 0xC7 → hostWord (writeWord 0xB d) s = hostWord (writeWord 0xB e) s) ∧
      (d &&& 0x03 = e &&& 0x03 → hostWord (writeWord 0xD d) s = hostWord (writeWord 0xD e) s)

/-- R72: a TWI_DATA write is stored and clears WC when no operation is in flight, and otherwise is dropped and sets
WC. -/
def Obligations.TwiDataWriteGuarded : Prop :=
  SpelledBy 0x8200 0xFF00 (fun w => .twiDataWr (fieldData w)) ∧
  ∀ (d : Byte) (s : State),
    (s.twi.op ≠ .none → exec (.twiDataWr d) s = .next { s with twi := { s.twi with wc := true } }) ∧
    (s.twi.op = .none → exec (.twiDataWr d) s = .next { s with twi := { s.twi with data := d, wc := false } })

/-- R74: TWI_BR is stored at any time, no flag is written, and no other access and no step of the block's units or of
the environment reads it. -/
def Obligations.TwiBrStoredWithoutEffect : Prop :=
  SpelledBy 0x8300 0xFF00 (fun w => .twiBrWr (fieldData w)) ∧
  (∀ (d : Byte) (s : State), exec (.twiBrWr d) s = .next { s with twi := { s.twi with br := d } }) ∧
  (∀ (d : Byte) (i : Instr) (s t : State),
    i ≠ .twiBrRd → (∀ e, i ≠ .twiBrWr e) → exec i s = .next t →
    exec i { s with twi := { s.twi with br := d } } = .next { t with twi := { t.twi with br := d } }) ∧
  (∀ (d : Byte) (m : Move) (s t : State), m.isInternal = true → runMove m s = .next t →
    runMove m { s with twi := { s.twi with br := d } } = .next { t with twi := { t.twi with br := d } })

/-- R69, R70, R75: reads of TWI_CTRL, TWI_STATUS and TWI_BR, and of TWI_DATA (R73), return the register and change no
state of the block. -/
def Obligations.TwiReadsReturnRegisters : Prop :=
  SpelledBy 0x0000 0xFFFF (fun _ => .twiCtrlRd) ∧ SpelledBy 0x0100 0xFFFF (fun _ => .twiStatusRd) ∧
  SpelledBy 0x0200 0xFFFF (fun _ => .twiDataRd) ∧ SpelledBy 0x0300 0xFFFF (fun _ => .twiBrRd) ∧
  ∀ s : State,
    (∃ v : Byte, exec .twiCtrlRd s = .next { s with readLog := s.readLog ++ [v] } ∧
      v.toNat = 128 * s.twi.int.toNat + 64 * s.twi.ea.toNat + 32 * (decide (s.twi.op = .start)).toNat
        + 16 * (decide (s.twi.op = .stop)).toNat + 8 * s.twi.wc.toNat + 4 * s.twi.en.toNat) ∧
    exec .twiStatusRd s = .next { s with readLog := s.readLog ++ [s.twi.status] } ∧
    exec .twiDataRd s = .next { s with readLog := s.readLog ++ [s.twi.data] } ∧
    exec .twiBrRd s = .next { s with readLog := s.readLog ++ [s.twi.br] }

/-! ## The TWI engine -/

/-- R76: in a legal state the engine has a step exactly when an operation is in flight; the step takes the operation
away, and sets INT unless the operation was a STOP, which leaves INT = 0. That an engine move without a step changes
nothing is the model's (log 1). -/
def Obligations.EngineCompletesOperationInFlight : Prop :=
  ∀ (s : State) (ans : BusAnswer), s.Legal →
    (s.twi.op = .none → engineStep ans s = .next s) ∧
    (s.twi.op ≠ .none → ∃ t, engineStep ans s = .next t ∧ t.twi.op = .none ∧
      (t.twi.int = true ↔ s.twi.op ≠ .stop))

/-- R77: completion of START. -/
def Obligations.StartCompletion : Prop :=
  ∀ (s : State) (ans : BusAnswer), s.twi.op = .start →
    engineStep ans s = .next { s with
      twi := { s.twi with
        op := .none, phase := .started, int := true, status := if s.twi.phase = .idle then 0x08 else 0x10 }
      env := s.env.start (decide (s.twi.phase = .idle))
      history := s.history ++ [if s.twi.phase = .idle then .start else .rstart] }

/-- R78: completion of STOP. -/
def Obligations.StopCompletion : Prop :=
  ∀ (s : State) (ans : BusAnswer), s.twi.op = .stop →
    engineStep ans s = .next { s with
      twi := { s.twi with op := .none, phase := .idle, status := 0xF8 }
      env := if s.twi.phase = .idle then s.env else s.env.stop
      history := s.history ++ (if s.twi.phase = .idle then [] else [.stop]) }

/-- R79: completion of SEND_ADDR(b), for the acknowledge a the environment answers. -/
def Obligations.AddressCompletion : Prop :=
  ∀ (s : State) (ans : BusAnswer) (b : Byte) (a : Bool) (e : BusEnv),
    s.twi.op = .sendAddr b → s.env.addr b ans = (a, e) →
    engineStep ans s = .next { s with
      twi := { s.twi with
        op := .none, int := true
        phase := if a = false then .addrNack else if b.getLsbD 0 = false then .mt else .mr
        status := if b.getLsbD 0 = false then (if a then 0x18 else 0x20) else (if a then 0x40 else 0x48) }
      env := e
      history := s.history ++ [.addr b a] }

/-- R80: completion of SEND_DATA(b), for the acknowledge a the environment answers. -/
def Obligations.DataCompletion : Prop :=
  ∀ (s : State) (ans : BusAnswer) (b : Byte) (a : Bool) (e : BusEnv),
    s.twi.op = .sendData b → s.env.write b ans = (a, e) →
    engineStep ans s = .next { s with
      twi := { s.twi with op := .none, int := true, status := if a then 0x28 else 0x30 }
      env := e
      history := s.history ++ [.write b a] }

/-- R81: completion of RECV(k), for the byte v the environment answers. -/
def Obligations.ReceiveCompletion : Prop :=
  ∀ (s : State) (ans : BusAnswer) (k : Bool) (v : Byte) (e : BusEnv),
    s.twi.op = .recv k → s.env.read k ans = some (v, e) →
    engineStep ans s = .next { s with
      twi := { s.twi with
        op := .none, int := true, data := v, phase := if k then .mr else .mrEnd
        status := if k then 0x50 else 0x58 }
      env := e
      history := s.history ++ [.read v k] }

/-- R112: the generic environment may answer any acknowledge bit and any byte at any call. That the answer is brought
by the engine's move, and that this environment keeps no state of its own, is the model's choice (log 3). -/
def Obligations.GenericEnvironmentAnswersFreely : Prop :=
  ∀ (b : Byte) (k a : Bool) (v : Byte), ∃ ans : BusAnswer,
    BusEnv.generic.addr b ans = (a, .generic) ∧ BusEnv.generic.write b ans = (a, .generic) ∧
    BusEnv.generic.read k ans = some (v, .generic) ∧ BusEnv.generic.start a = .generic ∧
    BusEnv.generic.stop = .generic ∧ BusEnv.generic.release = .generic

/-- R117, R118, R119, R120, R121: the calls of the reference RTC slave. -/
def Obligations.ReferenceSlaveCalls : Prop :=
  ∀ (r : RtcSlave) (ans : BusAnswer) (b : Byte) (k first : Bool), r.ptr < r.regs.length →
    (BusEnv.rtc r).start first = .rtc { r with frame := .waitAddr } ∧
    (BusEnv.rtc r).stop = .rtc { r with frame := .free } ∧
    (BusEnv.rtc r).release = .rtc { r with frame := .free } ∧
    (r.frame = .waitAddr → b.extractLsb' 1 7 = r.addr →
      (BusEnv.rtc r).addr b ans = (true, .rtc { r with frame := if b.getLsbD 0 then .rData else .wPtr })) ∧
    (¬(r.frame = .waitAddr ∧ b.extractLsb' 1 7 = r.addr) →
      (BusEnv.rtc r).addr b ans = (false, .rtc { r with frame := .ignore })) ∧
    (r.frame = .wPtr →
      (BusEnv.rtc r).write b ans = (true, .rtc { r with ptr := b.toNat % r.regs.length, frame := .wData })) ∧
    (r.frame = .wData →
      (BusEnv.rtc r).write b ans =
        (true, .rtc { r with regs := r.regs.set r.ptr b, ptr := (r.ptr + 1) % r.regs.length })) ∧
    (r.frame ≠ .wPtr → r.frame ≠ .wData → (BusEnv.rtc r).write b ans = (false, .rtc r)) ∧
    (r.frame = .rData → ∀ v, r.regs[r.ptr]? = some v →
      (BusEnv.rtc r).read k ans =
        some (v, .rtc { r with ptr := (r.ptr + 1) % r.regs.length, frame := if k then .rData else .ignore })) ∧
    (r.frame ≠ .rData → (BusEnv.rtc r).read k ans = some (0xFF, .rtc r))

/-- R122: a clock move changes at most registers 0 to 2 of a slave whose oscillator runs, and only to a BCD time; a
slave whose halt flag is set and the block are untouched. That a halted oscillator takes no step is the model's reading
(log 10). -/
def Obligations.RtcClockChangesOnlyTimeRegisters : Prop :=
  ∀ (s : State) (x y z : Byte), ∃ t, runMove (.rtcClock x y z) s = .next t ∧ t = { s with env := t.env } ∧
    (s.env = .generic → t.env = .generic) ∧
    ∀ r, s.env = .rtc r → ∃ q, t.env = .rtc q ∧ q.addr = r.addr ∧ q.ptr = r.ptr ∧ q.frame = r.frame ∧
      q.regs.length = r.regs.length ∧ (∀ n, 3 ≤ n → q.regs[n]? = r.regs[n]?) ∧
      (bcdTime x y z = false → q = r) ∧
      ((∃ v, r.regs[0]? = some v ∧ v.getLsbD 7 = true) → q = r) ∧
      (3 ≤ r.regs.length → bcdTime x y z = true → (∃ v, r.regs[0]? = some v ∧ v.getLsbD 7 = false) →
        q.regs[0]? = some x ∧ q.regs[1]? = some y ∧ q.regs[2]? = some z)

/-! ## The display unit -/

/-- R88, R89: the decoder is total on legal codes and leaves the decimal point clear, for every FONT; and under the
default FONT the digit codes show the patterns of R88. -/
def Obligations.DecoderTotalOnLegalCodes : Prop :=
  (List.range 16).map (fun n => render Config.defaultFont (BitVec.ofNat 8 n)) =
    ([0x3F, 0x06, 0x5B, 0x4F, 0x66, 0x6D, 0x7D, 0x07, 0x7F, 0x6F, 0x77, 0x7C, 0x39, 0x5E, 0x79, 0x71] :
      List Byte).map some ∧
  ∀ (font : Vector Glyph 16) (x : Byte), x ≤ 0x11 →
    ∃ p, render font x = some p ∧ p.getLsbD 7 = false ∧
      (∀ h : x.toNat < 16, p.toNat = (font[x.toNat]).toNat) ∧ (x = 0x10 → p = 0x00) ∧ (x = 0x11 → p = 0x40)

/-- R90: a digit write stores a legal code in its slot and nothing else, and a code above 0x11 only sets DERR; the
output lines do not change at the write. -/
def Obligations.DigitWriteChecked : Prop :=
  SpelledBy 0x8400 0xFC00 (fun w => .dispDigitWr (w.extractLsb' 8 2) (fieldData w)) ∧
  ∀ (n : Slot) (d : Byte) (s : State),
    (0x11 < d → exec (.dispDigitWr n d) s = .next { s with disp := { s.disp with derr := true } }) ∧
    (d ≤ 0x11 → ∃ p, exec (.dispDigitWr n d) s = .next { s with disp := p } ∧
      p.slot n = d ∧ (∀ m, m ≠ n → p.slot m = s.disp.slot m) ∧
      p.derr = s.disp.derr ∧ p.cursor = s.disp.cursor ∧ p.sel = s.disp.sel ∧ p.seg = s.disp.seg)

/-- R92: a DISP_STATUS write clears DERR exactly when bit 7 is 1, and changes nothing else. -/
def Obligations.DispStatusWriteClearsDerr : Prop :=
  SpelledBy 0x8800 0xFF00 (fun w => .dispStatusWr (fieldData w)) ∧
  ∀ (d : Byte) (s : State),
    (d.getLsbD 7 = true →
      exec (.dispStatusWr d) s = .next { s with disp := { s.disp with derr := false } }) ∧
    (d.getLsbD 7 = false → exec (.dispStatusWr d) s = .next s)

/-- R91, R93, R94, R95: reads of the display registers return them and change no state of the block. -/
def Obligations.DisplayReadsReturnRegisters : Prop :=
  SpelledBy 0x0400 0xFCFF (fun w => .dispDigitRd (w.extractLsb' 8 2)) ∧
  SpelledBy 0x0800 0xFFFF (fun _ => .dispStatusRd) ∧ SpelledBy 0x0900 0xFFFF (fun _ => .dispSelRd) ∧
  SpelledBy 0x0A00 0xFFFF (fun _ => .dispSegRd) ∧
  ∀ s : State,
    (∀ n : Slot, exec (.dispDigitRd n) s = .next { s with readLog := s.readLog ++ [s.disp.slot n] }) ∧
    (∃ v : Byte, exec .dispStatusRd s = .next { s with readLog := s.readLog ++ [v] } ∧
      v.toNat = 128 * s.disp.derr.toNat + s.disp.cursor.toNat) ∧
    (∃ v : Byte, exec .dispSelRd s = .next { s with readLog := s.readLog ++ [v] } ∧
      v.toNat = s.disp.sel.toNat) ∧
    exec .dispSegRd s = .next { s with readLog := s.readLog ++ [s.disp.seg] }

/-- R98: in a legal state the display service has a step exactly when OVF = 1 and TIE = 1, and the step selects the
cursor's position, drives its rendered slot with the decimal point at position 1, advances the cursor modulo 4 and
clears OVF, whatever the TWI state is. That a service move without a step changes nothing is the model's (log 1). -/
def Obligations.ServiceStepDrivesCursor : Prop :=
  ∀ s : State, s.Legal →
    (¬(s.tmr.ovf = true ∧ s.tmr.tie = true) → takeTick s = .next s) ∧
    (s.tmr.ovf = true → s.tmr.tie = true →
      ∃ p t, render s.params.font (s.disp.slot s.disp.cursor) = some p ∧ takeTick s = .next t ∧
        t.disp.sel.toNat = 2 ^ s.disp.cursor.toNat ∧
        t.disp.seg = (if s.disp.cursor = 1 then p ||| 0x80 else p) ∧
        t.disp.cursor.toNat = (s.disp.cursor.toNat + 1) % 4 ∧
        t.disp.digit = s.disp.digit ∧ t.disp.derr = s.disp.derr ∧
        t.tmr = { s.tmr with ovf := false } ∧
        t = { s with disp := t.disp, tmr := t.tmr, pinLog := t.pinLog } ∧
        ∀ x, takeTick { s with twi := x } = .next { t with twi := x })

/-- R99: at the pins a service step takes the segments to 0 before the select lines change, and drives the new pattern
only after the new select line. The record of line values is the model's own (log 5). -/
def Obligations.ServicePinOrder : Prop :=
  ∀ s t : State, s.tmr.ovf = true → s.tmr.tie = true → takeTick s = .next t →
    t.pinLog = s.pinLog ++ [⟨s.disp.sel, 0x00⟩, ⟨t.disp.sel, 0x00⟩, ⟨t.disp.sel, t.disp.seg⟩]

/-- R100: after a service step the decimal point is lit if and only if the step drove position 1, whatever the slot
holds. -/
def Obligations.DecimalPointOnlyAtPositionOne : Prop :=
  ∀ s t : State, s.tmr.ovf = true → s.tmr.tie = true → takeTick s = .next t →
    (t.disp.seg.getLsbD 7 = true ↔ s.disp.cursor = 1)

/-- R101: the k-th service step drives position (k - 1) mod 4. The pin record holds three entries for each service
step, so a run keeps it that entry 3k + 2 shows the select line of position k mod 4 and the cursor is the number of
steps taken mod 4. -/
def Obligations.ServiceStepsVisitPositionsInTurn : Prop :=
  ∀ (s t : State) (n : Nat),
    s.pinLog.length = 3 * n → s.disp.cursor.toNat = n % 4 →
    (∀ (k : Nat) (l : Lines), s.pinLog[3 * k + 2]? = some l → l.sel.toNat = 2 ^ (k % 4)) →
    step s = .next t →
    ∃ m, (m = n ∨ m = n + 1) ∧ t.pinLog.length = 3 * m ∧ t.disp.cursor.toNat = m % 4 ∧
      (∀ (k : Nat) (l : Lines), t.pinLog[3 * k + 2]? = some l → l.sel.toNat = 2 ^ (k % 4))

/-! ## The timer unit -/

/-- R102: a TMR_CTRL write stores TIE at any time, and CS only while LOCK = 0, where a nonzero CS sets LOCK. -/
def Obligations.TimerControlWriteLocks : Prop :=
  SpelledBy 0x8B00 0xFF00 (fun w => .tmrCtrlWr (fieldData w)) ∧
  ∀ (d : Byte) (s : State),
    (s.tmr.lock = true →
      exec (.tmrCtrlWr d) s = .next { s with tmr := { s.tmr with tie := d.getLsbD 7 } }) ∧
    (s.tmr.lock = false → ∃ t, exec (.tmrCtrlWr d) s = .next { s with tmr := t } ∧
      t.tie = d.getLsbD 7 ∧ t.cs.toNat = d.toNat % 8 ∧ (t.lock = true ↔ d.toNat % 8 ≠ 0) ∧
      t.count = s.tmr.count ∧ t.ovr = s.tmr.ovr ∧ t.ovf = s.tmr.ovf)

/-- R106: a TMR_FLAGS write clears OVF when bit 0 is 1 and OVR when bit 1 is 1. -/
def Obligations.TimerFlagsWriteOneToClear : Prop :=
  SpelledBy 0x8D00 0xFF00 (fun w => .tmrFlagsWr (fieldData w)) ∧
  ∀ (d : Byte) (s : State),
    exec (.tmrFlagsWr d) s = .next { s with
      tmr := { s.tmr with
        ovf := if d.getLsbD 0 then false else s.tmr.ovf, ovr := if d.getLsbD 1 then false else s.tmr.ovr } }

/-- R103, R104, R107: reads of the timer registers return them and change no state of the block. -/
def Obligations.TimerReadsReturnRegisters : Prop :=
  SpelledBy 0x0B00 0xFFFF (fun _ => .tmrCtrlRd) ∧ SpelledBy 0x0C00 0xFFFF (fun _ => .tmrCountRd) ∧
  SpelledBy 0x0D00 0xFFFF (fun _ => .tmrFlagsRd) ∧
  ∀ s : State,
    (∃ v : Byte, exec .tmrCtrlRd s = .next { s with readLog := s.readLog ++ [v] } ∧
      v.toNat = 128 * s.tmr.tie.toNat + 64 * s.tmr.lock.toNat + s.tmr.cs.toNat) ∧
    exec .tmrCountRd s = .next { s with readLog := s.readLog ++ [s.tmr.count] } ∧
    (∃ v : Byte, exec .tmrFlagsRd s = .next { s with readLog := s.readLog ++ [v] } ∧
      v.toNat = 2 * s.tmr.ovr.toNat + s.tmr.ovf.toNat)

/-- R108: the timer has a step exactly when CS != 0 and not (OVF = 1 and TIE = 1); it counts, and an overflow sets OVF,
and OVR too when OVF was already 1. That a timer move without a step changes nothing is the model's (log 1). -/
def Obligations.TimerStepCounts : Prop :=
  ∀ s : State,
    (s.tmr.cs = 0 ∨ (s.tmr.ovf = true ∧ s.tmr.tie = true) → runMove .timer s = .next s) ∧
    (s.tmr.cs ≠ 0 → ¬(s.tmr.ovf = true ∧ s.tmr.tie = true) →
      (s.tmr.count ≠ 0xFF →
        ∃ t, runMove .timer s = .next { s with tmr := { s.tmr with count := t } } ∧
          t.toNat = s.tmr.count.toNat + 1) ∧
      (s.tmr.count = 0xFF →
        runMove .timer s = .next { s with
          tmr := { s.tmr with count := 0x00, ovf := true, ovr := if s.tmr.ovf then true else s.tmr.ovr } }))

/-- R111: one overflow period is 256 timer steps: with TIE = 0, 256 timer moves in a row bring the counter back to its
value with OVF = 1, and OVR = 1 too when OVF was 1. -/
def Obligations.OverflowPeriodIs256Steps : Prop :=
  ∀ (s : State) (rest : List Move),
    s.Legal → s.tmr.cs ≠ 0 → s.tmr.tie = false → s.agenda = List.replicate 256 .timer ++ rest →
    Sys2Proof.core.run 256 s = .next { s with
      tmr := { s.tmr with ovf := true, ovr := s.tmr.ovr || s.tmr.ovf }, agenda := rest }

/-- R110: a step sets OVR only as a timer step that overflows while TIE = 0 and OVF = 1; with TIE = 1 no tick is
lost. -/
def Obligations.TicksLostOnlyWhileMasked : Prop :=
  ∀ s t : State, step s = .next t → s.tmr.ovr = false → t.tmr.ovr = true →
    s.tmr.tie = false ∧ s.tmr.ovf = true ∧ s.tmr.count = 0xFF ∧ ∃ rest, s.agenda = .timer :: rest

/-- R138: while TIE = 0 a pending overflow is not serviced and does not stop the counter, and when a TMR_CTRL write
sets TIE the pending tick is taken by the next service step. That a service move without a step changes nothing is the
model's (log 1). -/
def Obligations.MaskedTickStaysPending : Prop :=
  ∀ (s : State) (d : Byte), s.Legal → s.tmr.tie = false → s.tmr.ovf = true →
    takeTick s = .next s ∧
    (s.tmr.cs ≠ 0 → ∃ t, runMove .timer s = .next t ∧ t.tmr.count ≠ s.tmr.count ∧ t.tmr.ovf = true) ∧
    (d.getLsbD 7 = true → ∃ t u, exec (.tmrCtrlWr d) s = .next t ∧ takeTick t = .next u ∧
      u.tmr.ovf = false ∧ u.disp.cursor ≠ s.disp.cursor)

/-! ## Frames and whole-machine rules -/

/-- R37: every read returns the read value of its register and changes nothing of the block, the environment or the
bus, so a second read returns the same value. -/
def Obligations.ReadsChangeNothing : Prop :=
  ∀ (i : Instr) (s : State), i.isRead = true →
    ∃ t, exec i s = .next t ∧ t = { s with readLog := s.readLog ++ [s.readReg i.offset] } ∧
      exec i t = .next { t with readLog := t.readLog ++ [s.readReg i.offset] }

/-- R38: a write changes only its own register, but for a TWI_CTRL write, which may change TWI_STATUS, a TWI_DATA
write, which may change WC and nothing else of TWI_CTRL, and a digit write, which may change DERR and nothing else of
DISP_STATUS or the lines; it never touches the observation records of reads and pins, the host, the parameters or the
moves to come, only a TWI_CTRL write touches TWI.op, and only a TWI_DISABLE touches TWI.phase, the bus history and the
environment. -/
def Obligations.WritesChangeOnlyTheirRegisters : Prop :=
  ∀ (i : Instr) (s t : State), i.isRead = false → exec i s = .next t →
    (∀ off : Offset, off ≠ i.offset →
      ¬(i.offset = 0x0 ∧ off = 0x1) → ¬(i.offset = 0x2 ∧ off = 0x0) →
      ¬((i.offset = 0x4 ∨ i.offset = 0x5 ∨ i.offset = 0x6 ∨ i.offset = 0x7) ∧ off = 0x8) →
      t.readReg off = s.readReg off) ∧
    t.readLog = s.readLog ∧ t.pinLog = s.pinLog ∧ t.host = s.host ∧ t.params = s.params ∧ t.agenda = s.agenda ∧
    (i.offset ≠ 0x0 → t.twi.op = s.twi.op) ∧
    (∀ d, i = .twiDataWr d → t = { s with twi := { s.twi with data := t.twi.data, wc := t.twi.wc } }) ∧
    (∀ n d, i = .dispDigitWr n d → t = { s with disp := { s.disp with digit := t.disp.digit, derr := t.disp.derr } }) ∧
    ((∀ d, i ≠ .twiDisable d) → t.history = s.history ∧ t.env = s.env ∧ t.twi.phase = s.twi.phase)

/-- R133: every access completes in one step (exec never faults and never refuses), and in a legal state no step of the
TWI engine, the timer, the display service or the environment faults or is refused. -/
def Obligations.EveryAccessCompletes : Prop :=
  (∀ (i : Instr) (s : State), ∃ t, exec i s = .next t) ∧
  ∀ (s : State) (m : Move) (rest : List Move),
    s.Legal → s.agenda = m :: rest → m.isInternal = true → ∃ t, step s = .next t

/-- R42: the timer and display steps neither read nor write TWI state or the environment, and the TWI engine neither
reads nor writes display or timer state. -/
def Obligations.UnitsDoNotInterfere : Prop :=
  (∀ (m : Move) (s t : State) (x : Twi) (e : BusEnv), m = .timer ∨ m = .display → runMove m s = .next t →
    t.twi = s.twi ∧ t.env = s.env ∧ t.history = s.history ∧
    runMove m { s with twi := x, env := e } = .next { t with twi := x, env := e }) ∧
  (∀ (ans : BusAnswer) (s t : State) (p : Display) (c : Timer), engineStep ans s = .next t →
    t.disp = s.disp ∧ t.tmr = s.tmr ∧
    engineStep ans { s with disp := p, tmr := c } = .next { t with disp := p, tmr := c })

/-- R96: writes of DISP_SEL and DISP_SEG are ignored, and of all steps only a display service step changes the select
lines, the segment lines or the cursor (R22). -/
def Obligations.OnlyServiceMovesTheLines : Prop :=
  SpelledBy 0x8900 0xFF00 (fun w => .dispSelWr (fieldData w)) ∧
  SpelledBy 0x8A00 0xFF00 (fun w => .dispSegWr (fieldData w)) ∧
  (∀ (d : Byte) (s : State), exec (.dispSelWr d) s = .next s ∧ exec (.dispSegWr d) s = .next s) ∧
  ∀ s t : State, step s = .next t →
    (t.disp.cursor ≠ s.disp.cursor ∨ t.disp.sel ≠ s.disp.sel ∨ t.disp.seg ≠ s.disp.seg) →
    ∃ rest, s.agenda = .display :: rest ∧ s.tmr.ovf = true ∧ s.tmr.tie = true

/-- R135: one access raises at most one error report: E1 (a status turned 0x00), E4 (WC), E5 (DERR), E6 (OVR). -/
def Obligations.OneErrorReportPerAccess : Prop :=
  ∀ (i : Instr) (s t : State), exec i s = .next t →
    (decide (t.twi.status = 0x00 ∧ s.twi.status ≠ 0x00)).toNat + (t.twi.wc && !s.twi.wc).toNat
      + (t.disp.derr && !s.disp.derr).toNat + (t.tmr.ovr && !s.tmr.ovr).toNat ≤ 1

/-- R31, R149, R150: every register reads its reset value, the history is empty, and no agent but the host has a
step. That a move without a step changes nothing is the model's (log 1). -/
def Obligations.ResetState : Prop :=
  (List.range 16).map (fun n => State.reset.readReg (BitVec.ofNat 4 n)) =
    [0x00, 0xF8, 0xFF, 0x00, 0x10, 0x10, 0x10, 0x10, 0x00, 0x00, 0x00, 0x00, 0x00, 0x00, 0x00, 0x00] ∧
  State.reset.twi.phase = .idle ∧ State.reset.twi.op = .none ∧ State.reset.history = [] ∧
  takeTick State.reset = .next State.reset ∧ timerStep State.reset = State.reset ∧
  ∀ ans, engineStep ans State.reset = .next State.reset

/-! ## Invariants -/

/-- R19, R21, R29 hold at every step boundary: every step keeps them, and keeps the reference slave's pointer within its
registers. -/
def Obligations.StepKeepsLegality : Prop :=
  ∀ s t : State, step s = .next t → t.Legal

/-- The reset state meets the whole invariant. -/
def Obligations.ResetMeetsInvariant : Prop := State.reset.Inv

/-- Every step keeps the whole invariant: R19, R21, R29, the status codes of R57 without 0x38 (R84), the select lines of
R25, and the agreement of the bus history with TWI.phase (R83). -/
def Obligations.StepKeepsInvariant : Prop :=
  ∀ s t : State, s.Inv → step s = .next t → t.Inv

/-- R25: once one digit-select line is asserted, exactly one stays asserted, and every service step, so the first too,
asserts one. -/
def Obligations.SelectLinesStayOneHot : Prop :=
  ∀ s t : State, step s = .next t →
    (SelectOneHot s.disp.sel → SelectOneHot t.disp.sel) ∧
    (t.disp.sel ≠ s.disp.sel → SelectOneHot t.disp.sel) ∧
    (∀ rest, s.agenda = .display :: rest → s.tmr.ovf = true → s.tmr.tie = true → SelectOneHot t.disp.sel)

/-- A history whose events each stand where the phase machine allows them is a history of the grammar of R83. -/
def Obligations.PhaseMachineAcceptsOnlyTheGrammar : Prop :=
  ∀ (h : List BusEvent) (p : Phase), busPhase h = some p →
    GrammaticalHistory h ∧ (p = .idle → CompleteTransactions h)

/-- R83: from a launch state with an empty history, whatever the environment, the host's program, the parameters and the
order of moves, every run's bus history is complete transactions possibly followed by one open transaction. -/
def Obligations.BusHistoriesAreGrammatical : Prop :=
  ∀ (env : BusEnv) (host : HostCpu) (params : Params) (agenda : List Move) (n : Nat) (t : State),
    Sys2Proof.core.run n (State.launch env host params agenda) = .next t → GrammaticalHistory t.history

/-- R113: whatever accesses, statements, counts, services and clock moves stand before the next engine move, as long as
none of them is an engine move or a TWI_DISABLE, an operation in flight is still in flight then, with INT = 0 and
STATUS 0xF8 and nothing of the TWI unit changed but WC and TWI_BR, and that engine move completes it. No such move stops
the run when each is a word that spells an access or a move of the timer, the display or the clock. -/
def Obligations.OperationCompletesUnderBusProgress : Prop :=
  ∀ (s : State) (ans : BusAnswer) (pre rest : List Move),
    s.Legal → s.twi.op ≠ .none → s.agenda = pre ++ .twiEngine ans :: rest → (∀ m ∈ pre, m.isEngine = false) →
    (∀ (k : Nat) (u : State) (m : Move) (later : List Move), k < pre.length →
      Sys2Proof.core.run k s = .next u → u.agenda = m :: later → ¬m.Disables u) →
    s.EngineMoveAhead ∧
    (∀ u, Sys2Proof.core.run pre.length s = .next u →
      u.twi = { s.twi with wc := u.twi.wc, br := u.twi.br } ∧ u.twi.int = false ∧ u.twi.status = 0xF8 ∧
      ((∀ m ∈ pre, m.isBackground = true) → u.twi = s.twi) ∧
      ∃ t, Sys2Proof.core.run (pre.length + 1) s = .next t ∧ t.twi.op = .none ∧ t.agenda = rest) ∧
    ((∀ m ∈ pre, m.isBackground = true ∨ ∃ w i, m = .host (.word w) ∧ decode w = .ok i) →
      ∃ u, Sys2Proof.core.run pre.length s = .next u)

/-! ## The host script and BCD -/

/-- R55: the statement `W REG, e` is the access of the word 0x8000 | OFF << 8 | e, `R REG -> $x` that of OFF << 8, the
variable taking the value read, and one iteration of `POLL REG, m, v` that of OFF << 8 too: the script then stands at its
next statement, but a POLL whose value read does not meet m and v stands where it stood. Writing the low 8 bits of e,
the frames with numbered variables and one statement a move are the model's (log 12), and so is that POLL's $t is no
variable (log 18). -/
def Obligations.ScriptAccessesAreAccessWords : Prop :=
  ∀ (p : Bool) (s : State) (f : HostFrame) (callers : List HostFrame) (reg : Offset),
    s.host.frames = f :: callers →
    (∀ e, f.code[f.pc]? = some (.w reg e) →
      ∃ t, hostWord (0x8000 ||| (reg.setWidth 16 <<< 8) ||| BitVec.ofNat 16 (e.eval f.vars % 256)) s = .next t ∧
        scriptStep p s = .next { t with
          host := { s.host with frames := { f with pc := f.pc + 1 } :: callers } }) ∧
    (∀ x, f.code[f.pc]? = some (.r reg x) →
      ∃ t v, hostWord (reg.setWidth 16 <<< 8) s = .next t ∧ t.readLog = s.readLog ++ [v] ∧
        scriptStep p s = .next { t with
          host := { s.host with frames := { f with pc := f.pc + 1, vars := (x, v.toNat) :: f.vars } :: callers } }) ∧
    (∀ m v, f.code[f.pc]? = some (.poll reg m v) →
      ∃ t x, hostWord (reg.setWidth 16 <<< 8) s = .next t ∧ t.readLog = s.readLog ++ [x] ∧
        (x.toNat &&& m.eval f.vars = v.eval f.vars →
          scriptStep p s = .next { t with
            host := { s.host with frames := { f with pc := f.pc + 1 } :: callers } }) ∧
        (x.toNat &&& m.eval f.vars ≠ v.eval f.vars → scriptStep p s = .next { t with host := s.host }))

/-- R129: dec drops bit 7 and weighs the tens digit, enc writes the two digits of a v below 80, and dec(enc(v)) = v for
all of them. -/
def Obligations.BcdRoundTrip : Prop :=
  (∀ v : Nat, v < 80 → bcdEnc v = v / 10 * 16 + v % 10) ∧
  (∀ v : Nat, v < 80 → bcdDec (bcdEnc v) = v) ∧
  (∀ x : Byte, bcdDec x.toNat = x.toNat % 16 + (x.toNat / 16) % 8 * 10)

/-! ## BUS_PROGRESS -/

/-- R113: in a run without end under BUS_PROGRESS every operation that is ever in flight stays in flight, with INT = 0
and STATUS 0xF8, for finitely many steps, until an engine move completes it or a TWI_DISABLE abandons it. -/
def Obligations.EveryOperationEndsUnderBusProgress : Prop :=
  ∀ (r : Nat → State) (moves : Nat → Move), IsRun r moves → BusProgress r moves →
    ∀ n, (r n).twi.op ≠ .none →
      ∃ m, n ≤ m ∧ (r (m + 1)).twi.op = .none ∧ ((∃ ans, moves m = .twiEngine ans) ∨ (moves m).Disables (r m)) ∧
        ∀ k, n ≤ k → k ≤ m →
          (r k).twi.op = (r n).twi.op ∧ (r k).twi.int = false ∧ (r k).twi.status = 0xF8
end

