-- ==== Sys2Proof/Laws/Decode.lean ====
section
/-! SUPPORT. The fields of the words writeWord and readWord build, what such words decode to, and how a word is put
together again from its fields. -/

namespace Sys2Proof

@[simp] theorem fieldZ_writeWord (off : Offset) (d : Byte) : fieldZ (writeWord off d) = 0 := by
  unfold fieldZ writeWord
  ext i hi
  interval_cases i <;> simp

@[simp] theorem fieldW_writeWord (off : Offset) (d : Byte) : fieldW (writeWord off d) = true := by
  simp [fieldW, writeWord]

@[simp] theorem fieldOff_writeWord (off : Offset) (d : Byte) : fieldOff (writeWord off d) = off := by
  unfold fieldOff writeWord
  ext i hi
  interval_cases i <;> simp

@[simp] theorem fieldData_writeWord (off : Offset) (d : Byte) : fieldData (writeWord off d) = d := by
  unfold fieldData writeWord
  ext i hi
  interval_cases i <;> simp

@[simp] theorem fieldZ_readWord (off : Offset) : fieldZ (readWord off) = 0 := by revert off; decide

@[simp] theorem fieldW_readWord (off : Offset) : fieldW (readWord off) = false := by revert off; decide

@[simp] theorem fieldOff_readWord (off : Offset) : fieldOff (readWord off) = off := by revert off; decide

@[simp] theorem fieldData_readWord (off : Offset) : fieldData (readWord off) = 0 := by revert off; decide

/-- A write word decodes by its offset and data. -/
theorem decode_writeWord (off : Offset) (d : Byte) : decode (writeWord off d) = .ok (decodeWrite off d) := by
  simp [decode]

/-- A read word decodes by its offset. -/
theorem decode_readWord (off : Offset) : decode (readWord off) = .ok (decodeRead off) := by
  simp [decode]

/-- Bit i of the Z field is bit 12 + i of the word. -/
theorem fieldZ_getLsbD (w : Word) {i : Nat} (h : i < 3) : (fieldZ w).getLsbD i = w.getLsbD (12 + i) := by
  simp [fieldZ, h]

/-- Bit i of the DATA field is bit i of the word. -/
theorem fieldData_getLsbD (w : Word) {i : Nat} (h : i < 8) : (fieldData w).getLsbD i = w.getLsbD i := by
  simp [fieldData, h]

/-- A word whose Z field is 0 and whose W field is 1 is the write word of its OFF and DATA fields. -/
theorem writeWord_fields {w : Word} (hz : fieldZ w = 0) (hw : fieldW w = true) :
    writeWord (fieldOff w) (fieldData w) = w := by
  have z : ∀ i < 3, w.getLsbD (12 + i) = false := by
    intro i hi
    rw [← fieldZ_getLsbD w hi, hz]
    simp
  have z0 := z 0 (by decide)
  have z1 := z 1 (by decide)
  have z2 := z 2 (by decide)
  simp only [fieldW] at hw
  apply BitVec.eq_of_getLsbD_eq
  intro i hi
  interval_cases i <;> simp_all [writeWord, fieldOff, fieldData]

/-- A word whose Z, W and DATA fields are 0 is the read word of its OFF field. -/
theorem readWord_fields {w : Word} (hz : fieldZ w = 0) (hw : fieldW w = false) (hd : fieldData w = 0) :
    readWord (fieldOff w) = w := by
  have z : ∀ i < 3, w.getLsbD (12 + i) = false := by
    intro i hi
    rw [← fieldZ_getLsbD w hi, hz]
    simp
  have z0 := z 0 (by decide)
  have z1 := z 1 (by decide)
  have z2 := z 2 (by decide)
  have e : ∀ i < 8, w.getLsbD i = false := by
    intro i hi
    rw [← fieldData_getLsbD w hi, hd]
    simp
  simp only [fieldW] at hw
  apply BitVec.eq_of_getLsbD_eq
  intro i hi
  by_cases h8 : i < 8
  · simp [readWord, h8, e i h8]
  · interval_cases i <;> simp_all [readWord, fieldOff]

end Sys2Proof
end

