-- ==== Sys2Proof/Laws/State.lean ====
section
/-! SUPPORT. What each named update leaves of each field: one lemma for each field of each update, true by
definition. -/

namespace Sys2Proof.Machine

/-! ## The launch state -/

@[simp] theorem State.launch_twi (e : BusEnv) (h : HostCpu) (p : Params) (a : List Move) :
    (State.launch e h p a).twi = .reset := rfl
@[simp] theorem State.launch_disp (e : BusEnv) (h : HostCpu) (p : Params) (a : List Move) :
    (State.launch e h p a).disp = .reset := rfl
@[simp] theorem State.launch_tmr (e : BusEnv) (h : HostCpu) (p : Params) (a : List Move) :
    (State.launch e h p a).tmr = .reset := rfl
@[simp] theorem State.launch_history (e : BusEnv) (h : HostCpu) (p : Params) (a : List Move) :
    (State.launch e h p a).history = [] := rfl
@[simp] theorem State.launch_env (e : BusEnv) (h : HostCpu) (p : Params) (a : List Move) :
    (State.launch e h p a).env = e.atStart := rfl
@[simp] theorem BusEnv.atStart_rtc (r : RtcSlave) : (BusEnv.rtc r).atStart = .rtc { r with frame := .free } := rfl

/-! ## emit -/

@[simp] theorem State.emit_twi (s : State) (e : BusEvent) : (s.emit e).twi = s.twi := rfl
@[simp] theorem State.emit_disp (s : State) (e : BusEvent) : (s.emit e).disp = s.disp := rfl
@[simp] theorem State.emit_tmr (s : State) (e : BusEvent) : (s.emit e).tmr = s.tmr := rfl
@[simp] theorem State.emit_history (s : State) (e : BusEvent) : (s.emit e).history = s.history ++ [e] := rfl
@[simp] theorem State.emit_readLog (s : State) (e : BusEvent) : (s.emit e).readLog = s.readLog := rfl
@[simp] theorem State.emit_pinLog (s : State) (e : BusEvent) : (s.emit e).pinLog = s.pinLog := rfl
@[simp] theorem State.emit_env (s : State) (e : BusEvent) : (s.emit e).env = s.env := rfl
@[simp] theorem State.emit_host (s : State) (e : BusEvent) : (s.emit e).host = s.host := rfl
@[simp] theorem State.emit_params (s : State) (e : BusEvent) : (s.emit e).params = s.params := rfl
@[simp] theorem State.emit_agenda (s : State) (e : BusEvent) : (s.emit e).agenda = s.agenda := rfl

/-! ## respond -/

@[simp] theorem State.respond_twi (s : State) (v : Byte) : (s.respond v).twi = s.twi := rfl
@[simp] theorem State.respond_disp (s : State) (v : Byte) : (s.respond v).disp = s.disp := rfl
@[simp] theorem State.respond_tmr (s : State) (v : Byte) : (s.respond v).tmr = s.tmr := rfl
@[simp] theorem State.respond_history (s : State) (v : Byte) : (s.respond v).history = s.history := rfl
@[simp] theorem State.respond_readLog (s : State) (v : Byte) : (s.respond v).readLog = s.readLog ++ [v] := rfl
@[simp] theorem State.respond_pinLog (s : State) (v : Byte) : (s.respond v).pinLog = s.pinLog := rfl
@[simp] theorem State.respond_env (s : State) (v : Byte) : (s.respond v).env = s.env := rfl
@[simp] theorem State.respond_host (s : State) (v : Byte) : (s.respond v).host = s.host := rfl
@[simp] theorem State.respond_params (s : State) (v : Byte) : (s.respond v).params = s.params := rfl
@[simp] theorem State.respond_agenda (s : State) (v : Byte) : (s.respond v).agenda = s.agenda := rfl
@[simp] theorem State.respond_readReg (s : State) (v : Byte) (off : Offset) :
    (s.respond v).readReg off = s.readReg off := rfl

/-! ## issue, illegal, configure, disable -/

@[simp] theorem Twi.issue_int (t : Twi) (o : TwiOp) : (t.issue o).int = false := rfl
@[simp] theorem Twi.issue_ea (t : Twi) (o : TwiOp) : (t.issue o).ea = t.ea := rfl
@[simp] theorem Twi.issue_wc (t : Twi) (o : TwiOp) : (t.issue o).wc = t.wc := rfl
@[simp] theorem Twi.issue_en (t : Twi) (o : TwiOp) : (t.issue o).en = t.en := rfl
@[simp] theorem Twi.issue_status (t : Twi) (o : TwiOp) : (t.issue o).status = statusNoInfo := rfl
@[simp] theorem Twi.issue_data (t : Twi) (o : TwiOp) : (t.issue o).data = t.data := rfl
@[simp] theorem Twi.issue_br (t : Twi) (o : TwiOp) : (t.issue o).br = t.br := rfl
@[simp] theorem Twi.issue_phase (t : Twi) (o : TwiOp) : (t.issue o).phase = t.phase := rfl
@[simp] theorem Twi.issue_op (t : Twi) (o : TwiOp) : (t.issue o).op = o := rfl

@[simp] theorem Twi.illegal_int (t : Twi) : t.illegal.int = true := rfl
@[simp] theorem Twi.illegal_ea (t : Twi) : t.illegal.ea = t.ea := rfl
@[simp] theorem Twi.illegal_wc (t : Twi) : t.illegal.wc = t.wc := rfl
@[simp] theorem Twi.illegal_en (t : Twi) : t.illegal.en = t.en := rfl
@[simp] theorem Twi.illegal_status (t : Twi) : t.illegal.status = statusIllegal := rfl
@[simp] theorem Twi.illegal_data (t : Twi) : t.illegal.data = t.data := rfl
@[simp] theorem Twi.illegal_br (t : Twi) : t.illegal.br = t.br := rfl
@[simp] theorem Twi.illegal_phase (t : Twi) : t.illegal.phase = t.phase := rfl
@[simp] theorem Twi.illegal_op (t : Twi) : t.illegal.op = t.op := rfl

@[simp] theorem Twi.configure_int (t : Twi) (d : Byte) : (t.configure d).int = t.int := rfl
@[simp] theorem Twi.configure_ea (t : Twi) (d : Byte) : (t.configure d).ea = ctrlEA d := rfl
@[simp] theorem Twi.configure_wc (t : Twi) (d : Byte) : (t.configure d).wc = t.wc := rfl
@[simp] theorem Twi.configure_en (t : Twi) (d : Byte) : (t.configure d).en = true := rfl
@[simp] theorem Twi.configure_status (t : Twi) (d : Byte) : (t.configure d).status = t.status := rfl
@[simp] theorem Twi.configure_data (t : Twi) (d : Byte) : (t.configure d).data = t.data := rfl
@[simp] theorem Twi.configure_br (t : Twi) (d : Byte) : (t.configure d).br = t.br := rfl
@[simp] theorem Twi.configure_phase (t : Twi) (d : Byte) : (t.configure d).phase = t.phase := rfl
@[simp] theorem Twi.configure_op (t : Twi) (d : Byte) : (t.configure d).op = t.op := rfl

@[simp] theorem Twi.disable_int (t : Twi) (d : Byte) : (t.disable d).int = false := rfl
@[simp] theorem Twi.disable_ea (t : Twi) (d : Byte) : (t.disable d).ea = ctrlEA d := rfl
@[simp] theorem Twi.disable_wc (t : Twi) (d : Byte) : (t.disable d).wc = false := rfl
@[simp] theorem Twi.disable_en (t : Twi) (d : Byte) : (t.disable d).en = false := rfl
@[simp] theorem Twi.disable_status (t : Twi) (d : Byte) : (t.disable d).status = statusNoInfo := rfl
@[simp] theorem Twi.disable_data (t : Twi) (d : Byte) : (t.disable d).data = t.data := rfl
@[simp] theorem Twi.disable_br (t : Twi) (d : Byte) : (t.disable d).br = t.br := rfl
@[simp] theorem Twi.disable_phase (t : Twi) (d : Byte) : (t.disable d).phase = .idle := rfl
@[simp] theorem Twi.disable_op (t : Twi) (d : Byte) : (t.disable d).op = .none := rfl

/-! ## The digit buffer -/

@[simp] theorem Display.setSlot_derr (p : Display) (n : Slot) (d : Byte) : (p.setSlot n d).derr = p.derr := rfl
@[simp] theorem Display.setSlot_cursor (p : Display) (n : Slot) (d : Byte) : (p.setSlot n d).cursor = p.cursor := rfl
@[simp] theorem Display.setSlot_sel (p : Display) (n : Slot) (d : Byte) : (p.setSlot n d).sel = p.sel := rfl
@[simp] theorem Display.setSlot_seg (p : Display) (n : Slot) (d : Byte) : (p.setSlot n d).seg = p.seg := rfl

/-! ## The host script -/

@[simp] theorem State.withFrame_twi (s : State) (f : HostFrame) (c : List HostFrame) :
    (s.withFrame f c).twi = s.twi := rfl
@[simp] theorem State.withFrame_disp (s : State) (f : HostFrame) (c : List HostFrame) :
    (s.withFrame f c).disp = s.disp := rfl
@[simp] theorem State.withFrame_tmr (s : State) (f : HostFrame) (c : List HostFrame) :
    (s.withFrame f c).tmr = s.tmr := rfl
@[simp] theorem State.withFrame_history (s : State) (f : HostFrame) (c : List HostFrame) :
    (s.withFrame f c).history = s.history := rfl
@[simp] theorem State.withFrame_readLog (s : State) (f : HostFrame) (c : List HostFrame) :
    (s.withFrame f c).readLog = s.readLog := rfl
@[simp] theorem State.withFrame_pinLog (s : State) (f : HostFrame) (c : List HostFrame) :
    (s.withFrame f c).pinLog = s.pinLog := rfl
@[simp] theorem State.withFrame_env (s : State) (f : HostFrame) (c : List HostFrame) :
    (s.withFrame f c).env = s.env := rfl
@[simp] theorem State.withFrame_params (s : State) (f : HostFrame) (c : List HostFrame) :
    (s.withFrame f c).params = s.params := rfl
@[simp] theorem State.withFrame_agenda (s : State) (f : HostFrame) (c : List HostFrame) :
    (s.withFrame f c).agenda = s.agenda := rfl

end Sys2Proof.Machine
end

