-- ==== Sys2Proof/Laws/Ops.lean ====
section
/-! SUPPORT. One lemma for each shared operation that says what it can do, for later proofs to cite in place of its
definition. -/

namespace Sys2Proof.Machine

/-! ## The digit buffer: a read after a write -/

theorem Display.slot_setSlot_same (p : Display) (n : Slot) (d : Byte) : (p.setSlot n d).slot n = d := by
  simp [Display.slot, Display.setSlot]

theorem Display.slot_setSlot_other (p : Display) {n m : Slot} (d : Byte) (h : m ≠ n) :
    (p.setSlot n d).slot m = p.slot m := by
  have hne : n.toNat ≠ m.toNat := fun e => h (BitVec.eq_of_toNat_eq e.symm)
  simp [Display.slot, Display.setSlot, hne]

theorem Display.setSlot_slotsLegal {p : Display} {n : Slot} {d : Byte} (hp : p.SlotsLegal) (hd : LegalCode d) :
    (p.setSlot n d).SlotsLegal := by
  intro m
  by_cases h : n.toNat = m.val
  · simpa [Display.setSlot, Vector.getElem_set, h] using hd
  · simpa [Display.setSlot, Vector.getElem_set, h] using hp m

theorem Display.slot_legal {p : Display} (hp : p.SlotsLegal) (n : Slot) : LegalCode (p.slot n) :=
  hp ⟨n.toNat, n.isLt⟩

/-! ## The read value of TWI_CTRL -/

/-- Bit 5 of TWI_CTRL is STA: a START is in flight. -/
theorem Twi.ctrlValue_sta (t : Twi) : t.ctrlValue.getLsbD 5 = (t.op == .start) := by
  unfold Twi.ctrlValue
  generalize t.int = a, t.ea = b, (t.op == .start) = c, (t.op == .stop) = d, t.wc = e, t.en = f
  revert a b c d e f
  decide

/-- Bit 4 of TWI_CTRL is STO: a STOP is in flight. -/
theorem Twi.ctrlValue_sto (t : Twi) : t.ctrlValue.getLsbD 4 = (t.op == .stop) := by
  unfold Twi.ctrlValue
  generalize t.int = a, t.ea = b, (t.op == .start) = c, (t.op == .stop) = d, t.wc = e, t.en = f
  revert a b c d e f
  decide

/-! ## TWI commands -/

theorem Twi.unlessBusy_busy {t : Twi} (h : t.op ≠ .none) (f : Twi → Twi) : t.unlessBusy f = t := by
  simp [Twi.unlessBusy, h]

theorem Twi.unlessBusy_free {t : Twi} (h : t.op = .none) (f : Twi → Twi) : t.unlessBusy f = f t := by
  simp [Twi.unlessBusy, h]

/-- A START or STOP command issues its operation or, in MR, is illegal. -/
theorem Twi.issueUnlessReceiving_cases (t : Twi) (o : TwiOp) :
    (t.phase = .mr ∧ t.issueUnlessReceiving o = t.illegal) ∨
    (t.phase ≠ .mr ∧ t.issueUnlessReceiving o = t.issue o) := by
  by_cases h : t.phase = .mr
  · exact .inl ⟨h, by simp [Twi.issueUnlessReceiving, h]⟩
  · exact .inr ⟨h, by simp [Twi.issueUnlessReceiving, h]⟩

/-- TWI_XFER issues the operation of its phase or is illegal. -/
theorem Twi.transfer_cases (t : Twi) (k : Bool) :
    (t.phase = .started ∧ t.transfer k = t.issue (.sendAddr t.data)) ∨
    (t.phase = .mt ∧ t.transfer k = t.issue (.sendData t.data)) ∨
    (t.phase = .mr ∧ t.transfer k = t.issue (.recv k)) ∨
    ((t.phase = .idle ∨ t.phase = .addrNack ∨ t.phase = .mrEnd) ∧ t.transfer k = t.illegal) := by
  cases h : t.phase <;> simp [Twi.transfer, h]

/-- A release leaves an idle bus alone and otherwise records RELEASE. -/
theorem State.releaseBus_cases (s : State) :
    (s.twi.phase = .idle ∧ s.releaseBus = s) ∨
    (s.twi.phase ≠ .idle ∧ s.releaseBus = { s with env := s.env.release, history := s.history ++ [.release] }) := by
  by_cases h : s.twi.phase = .idle
  · exact .inl ⟨h, by simp [State.releaseBus, h]⟩
  · exact .inr ⟨h, by simp [State.releaseBus, h, State.emit]⟩

/-! ## The environment's calls keep the slave within its registers -/

theorem BusEnv.start_wf {e : BusEnv} (first : Bool) (h : e.wf = true) : (e.start first).wf = true := by
  cases e with
  | generic => rfl
  | rtc r => exact h

theorem BusEnv.stop_wf {e : BusEnv} (h : e.wf = true) : e.stop.wf = true := by
  cases e with
  | generic => rfl
  | rtc r => exact h

theorem BusEnv.release_wf {e : BusEnv} (h : e.wf = true) : e.release.wf = true := by
  cases e with
  | generic => rfl
  | rtc r => exact h

theorem BusEnv.addr_wf {e : BusEnv} (b : Byte) (ans : BusAnswer) (h : e.wf = true) : (e.addr b ans).2.wf = true := by
  cases e with
  | generic => rfl
  | rtc r =>
    simp only [BusEnv.addr, RtcSlave.onAddr]
    split <;> simpa [BusEnv.wf] using h

theorem BusEnv.write_wf {e : BusEnv} (b : Byte) (ans : BusAnswer) (h : e.wf = true) :
    (e.write b ans).2.wf = true := by
  cases e with
  | generic => rfl
  | rtc r =>
    have hr : r.Wf := by simpa [BusEnv.wf] using h
    have hpos : 0 < r.regs.length := by omega
    have hlt : ∀ n, n % r.regs.length < r.regs.length := fun n => Nat.mod_lt n hpos
    cases hf : r.frame <;> simp [BusEnv.write, RtcSlave.onWrite, hf, BusEnv.wf, hr.1, hr.2, hlt]

/-- In a slave within its registers a read answers, and the slave stays within them. -/
theorem BusEnv.read_wf {e : BusEnv} (k : Bool) (ans : BusAnswer) (h : e.wf = true) :
    ∃ v e', e.read k ans = some (v, e') ∧ e'.wf = true := by
  cases e with
  | generic => exact ⟨ans.byte, .generic, rfl, rfl⟩
  | rtc r =>
    have hr : r.Wf := by simpa [BusEnv.wf] using h
    have hlt : (r.ptr + 1) % r.regs.length < r.regs.length := Nat.mod_lt _ (by omega)
    cases hf : r.frame <;> simp [BusEnv.read, RtcSlave.onRead, hf, BusEnv.wf, hr.1, hr.2, hlt]

theorem BusEnv.clock_wf {e : BusEnv} (x y z : Byte) (h : e.wf = true) : (e.clock x y z).wf = true := by
  cases e with
  | generic => rfl
  | rtc r =>
    simp only [BusEnv.clock]
    split <;> simpa [BusEnv.wf] using h

/-! ## The decoder and the service step -/

/-- A legal code is rendered, with the decimal point clear. -/
theorem render_of_legal (font : Vector Glyph 16) {x : Byte} (h : LegalCode x) :
    ∃ p, render font x = some p ∧ p.getLsbD 7 = false := by
  unfold render
  split
  · exact ⟨_, rfl, by simp⟩
  · rename_i hx
    have hle : x.toNat ≤ 17 := by simpa [LegalCode, BitVec.le_def] using h
    have : x = 0x10 ∨ x = 0x11 := by
      have : x.toNat = 16 ∨ x.toNat = 17 := by omega
      exact this.imp (fun e => BitVec.eq_of_toNat_eq e) (fun e => BitVec.eq_of_toNat_eq e)
    rcases this with rfl | rfl
    · exact ⟨0x00, rfl, rfl⟩
    · exact ⟨0x40, rfl, rfl⟩

/-- All the display service can do: nothing without a pending tick, and otherwise one service of the cursor's slot. -/
theorem takeTick_cases {s t : State} (h : takeTick s = .next t) :
    (¬s.tmr.TickPending ∧ t = s) ∨
    (s.tmr.TickPending ∧ ∃ p, render s.params.font (s.disp.slot s.disp.cursor) = some p ∧
      t = { s with
        disp := { s.disp with
          sel := selectLine s.disp.cursor, seg := withPoint s.disp.cursor p, cursor := s.disp.cursor + 1 }
        tmr := { s.tmr with ovf := false }
        pinLog := s.pinLog ++
          [⟨s.disp.sel, 0x00⟩, ⟨selectLine s.disp.cursor, 0x00⟩,
           ⟨selectLine s.disp.cursor, withPoint s.disp.cursor p⟩] }) := by
  unfold takeTick at h
  split at h
  · rename_i hp
    refine .inr ⟨hp, ?_⟩
    cases hr : render s.params.font (s.disp.slot s.disp.cursor) with
    | none => rw [hr] at h; cases h
    | some p =>
      rw [hr] at h
      cases h
      exact ⟨p, rfl, rfl⟩
  · rename_i hp
    cases h
    exact .inl ⟨hp, rfl⟩

/-- The service step never stops when the slots are legal. -/
theorem takeTick_next {s : State} (h : s.disp.SlotsLegal) : ∃ t, takeTick s = .next t := by
  obtain ⟨p, hp, -⟩ := render_of_legal s.params.font (Display.slot_legal h s.disp.cursor)
  unfold takeTick
  rw [hp]
  split
  · exact ⟨_, rfl⟩
  · exact ⟨_, rfl⟩

theorem selectLine_toNat (c : Slot) : (selectLine c).toNat = 2 ^ c.toNat := by
  revert c; decide

theorem selectLine_oneHot (c : Slot) : SelectOneHot (selectLine c) := by
  revert c; decide

/-! ## The timer -/

theorem Timer.tick_overflow {t : Timer} (h : t.count = 0xFF) :
    t.tick = { t with count := 0x00, ovr := t.ovr || t.ovf, ovf := true } := by
  simp [Timer.tick, h]

theorem Timer.tick_count {t : Timer} (h : t.count ≠ 0xFF) : t.tick = { t with count := t.count + 1 } := if_neg h

@[simp] theorem Timer.tick_tie (t : Timer) : t.tick.tie = t.tie := by
  unfold Timer.tick; split <;> rfl

@[simp] theorem Timer.tick_lock (t : Timer) : t.tick.lock = t.lock := by
  unfold Timer.tick; split <;> rfl

@[simp] theorem Timer.tick_cs (t : Timer) : t.tick.cs = t.cs := by
  unfold Timer.tick; split <;> rfl

/-! ## The bus history -/

/-- Appending an event moves the phase by that event. -/
theorem busPhase_append (h : List BusEvent) (e : BusEvent) :
    busPhase (h ++ [e]) = (busPhase h).bind fun p => p.after e := by
  simp [busPhase, List.foldl_append]

/-! ## Moves -/

/-- All a step can do: a legal state takes its next move, or has none. -/
theorem step_cases {s t : State} (h : step s = .next t) :
    s.Legal ∧ ((s.agenda = [] ∧ t = s) ∨
      ∃ m rest, s.agenda = m :: rest ∧ runMove m { s with agenda := rest } = .next t) := by
  unfold step at h
  split at h
  · rename_i hl
    refine ⟨hl, ?_⟩
    unfold nextMove at h
    split at h
    · rename_i ha
      cases h
      exact .inl ⟨ha, rfl⟩
    · rename_i m rest ha
      exact .inr ⟨m, rest, ha, h⟩
  · cases h

/-- A step of a legal state is its next move. -/
theorem step_of_legal {s : State} {m : Move} {rest : List Move} (h : s.Legal) (ha : s.agenda = m :: rest) :
    step s = runMove m { s with agenda := rest } := by
  rw [step, if_pos h, nextMove, ha]

/-- A host word that is performed is the access it spells. -/
theorem hostWord_cases {w : Word} {s t : State} (h : hostWord w s = .next t) :
    ∃ i, decode w = .ok i ∧ exec i s = .next t := by
  unfold hostWord at h
  cases hd : decode w with
  | error why => rw [hd] at h; cases h
  | ok i => rw [hd] at h; exact ⟨i, rfl, h⟩

/-- What a host or script move whose access word is w makes of the block: that word's access, or nothing if it has
none. -/
abbrev Accesses (w : Option Word) (s t : State) : Prop :=
  (w = none ∧ t = s) ∨ ∃ v i, w = some v ∧ decode v = .ok i ∧ exec i s = .next t

/-- All a host request can do: the access of its access word, or nothing when it is outside the window. -/
theorem hostRequest_access {r : HostRequest} {s t : State} (h : hostRequest r s = .next t) :
    Accesses (r.accessWord s.params) s t := by
  have at_cases : ∀ (a n : Nat) (word : Offset → Word), hostAt a n word s = .next t →
      Accesses (if TouchesWindow s.params a n then some (word (BitVec.ofNat 4 (a - s.params.base))) else none)
        s t := by
    intro a n word h
    unfold hostAt at h
    split at h
    · rename_i hw
      rw [if_pos hw]
      split at h
      · obtain ⟨i, hd, hi⟩ := hostWord_cases h
        exact .inr ⟨_, i, rfl, hd, hi⟩
      · cases h
    · rename_i hw
      cases h
      exact .inl ⟨if_neg hw, rfl⟩
  cases r with
  | word w =>
    obtain ⟨i, hd, hi⟩ := hostWord_cases h
    exact .inr ⟨w, i, rfl, hd, hi⟩
  | load a n => exact at_cases a n readWord h
  | store a n v => exact at_cases a n (fun off => writeWord off v) h

/-- A script move without a running script makes no access. -/
theorem Move.accessWord_noScript {p : Bool} {s : State} (hf : s.host.frames = []) :
    (Move.script p).accessWord s = none := by
  simp [Move.accessWord, hf]

/-- A script move makes the access of its next statement. -/
theorem Move.accessWord_script {p : Bool} {s : State} {f : HostFrame} {callers : List HostFrame} {st : HostStmt}
    (hf : s.host.frames = f :: callers) (hst : f.code[f.pc]? = some st) :
    (Move.script p).accessWord s = st.accessWord f.vars := by
  simp [Move.accessWord, hf, hst]

/-- All a script move can do to anything but the host: the access of its access word, or nothing. -/
theorem scriptStep_access {pressed : Bool} {s t : State} (h : scriptStep pressed s = .next t) :
    ∃ u, Accesses ((Move.script pressed).accessWord s) s u ∧ t = { u with host := t.host } := by
  have access : ∀ (w : Word) (f : HostFrame) (c : List HostFrame), scriptAccess w f c s = .next t →
      ∃ u, Accesses (some w) s u ∧ t = { u with host := t.host } := by
    intro w f c h
    unfold scriptAccess at h
    cases hw : hostWord w s with
    | next u =>
      rw [hw] at h
      cases h
      obtain ⟨i, hd, hi⟩ := hostWord_cases hw
      exact ⟨u, .inr ⟨w, i, rfl, hd, hi⟩, rfl⟩
    | fault e => rw [hw] at h; cases h
    | refused e => rw [hw] at h; cases h
  unfold scriptStep at h
  cases hf : s.host.frames with
  | nil =>
    simp only [hf] at h
    cases h
    exact ⟨s, .inl ⟨Move.accessWord_noScript hf, rfl⟩, rfl⟩
  | cons f callers =>
    cases hst : f.code[f.pc]? with
    | none => simp only [hf, hst] at h; cases h
    | some st =>
      simp only [hf, hst] at h
      rw [Move.accessWord_script hf hst]
      cases st <;> simp only [scriptStatement] at h
      case w reg e => exact access _ _ _ h
      case r reg x => exact access _ _ _ h
      case poll reg m v => exact access _ _ _ h
      case call routine args x onFail =>
        split at h
        · cases h
        · cases h; exact ⟨s, .inl ⟨rfl, rfl⟩, rfl⟩
      all_goals cases h; exact ⟨s, .inl ⟨rfl, rfl⟩, rfl⟩

/-- All a move can do: the access of its access word (whose host part a script may also move on), an engine step, a
count, a service, or a clock change. -/
theorem runMove_access {m : Move} {s t : State} (h : runMove m s = .next t) :
    (∃ u, Accesses (m.accessWord s) s u ∧ t = { u with host := t.host }) ∨
    (∃ ans, m = .twiEngine ans ∧ engineStep ans s = .next t) ∨
    (m = .timer ∧ t = timerStep s) ∨
    (m = .display ∧ takeTick s = .next t) ∨
    ∃ x y z, m = .rtcClock x y z ∧ t = rtcClockStep x y z s := by
  cases m with
  | host r => exact .inl ⟨t, hostRequest_access h, rfl⟩
  | script p => exact .inl (scriptStep_access h)
  | twiEngine ans => exact .inr (.inl ⟨ans, rfl, h⟩)
  | timer => cases h; exact .inr (.inr (.inl ⟨rfl, rfl⟩))
  | display => exact .inr (.inr (.inr (.inl ⟨rfl, h⟩)))
  | rtcClock x y z => cases h; exact .inr (.inr (.inr (.inr ⟨x, y, z, rfl, rfl⟩)))

/-- runMove_access without the word: a host or script move makes some access, or none. -/
theorem runMove_cases {m : Move} {s t : State} (h : runMove m s = .next t) :
    (∃ u, (u = s ∨ ∃ i, exec i s = .next u) ∧ t = { u with host := t.host }) ∨
    (∃ ans, m = .twiEngine ans ∧ engineStep ans s = .next t) ∨
    (m = .timer ∧ t = timerStep s) ∨
    (m = .display ∧ takeTick s = .next t) ∨
    ∃ x y z, m = .rtcClock x y z ∧ t = rtcClockStep x y z s := by
  rcases runMove_access h with ⟨u, hu, ht⟩ | h
  · exact .inl ⟨u, hu.imp And.right fun ⟨_, i, _, _, hi⟩ => ⟨i, hi⟩, ht⟩
  · exact .inr h

/-! ## An operation in flight -/

/-- While an operation is in flight an access that is no TWI_DISABLE changes nothing of the TWI unit but WC and
TWI_BR. -/
theorem exec_in_flight {i : Instr} {s t : State} (ho : s.twi.op ≠ .none) (hd : ∀ d, i ≠ .twiDisable d)
    (h : exec i s = .next t) : t.twi = { s.twi with wc := t.twi.wc, br := t.twi.br } := by
  cases i
  case twiDisable d => exact absurd rfl (hd d)
  case twiConfig d => cases h; rw [Twi.unlessBusy_busy ho]
  case twiStart d => cases h; rw [Twi.unlessBusy_busy ho]
  case twiStop d => cases h; rw [Twi.unlessBusy_busy ho]
  case twiXfer d => cases h; rw [Twi.unlessBusy_busy ho]
  case twiCmdReserved d => cases h; rw [Twi.unlessBusy_busy ho]
  case twiDataWr d => cases h; rw [if_neg ho]
  all_goals (cases h; rfl)

/-- A move of the display or timer unit or of the environment's clock leaves the TWI unit alone. -/
theorem runMove_background {m : Move} {s t : State} (hb : m.isBackground = true) (h : runMove m s = .next t) :
    t.twi = s.twi := by
  cases m with
  | host r => cases hb
  | script p => cases hb
  | twiEngine ans => cases hb
  | timer => cases h; unfold timerStep; split <;> rfl
  | display => rcases takeTick_cases h with ⟨-, rfl⟩ | ⟨-, p, -, rfl⟩ <;> rfl
  | rtcClock x y z => cases h; rfl

/-- A move that is neither the engine's nor a TWI_DISABLE leaves an operation in flight. -/
theorem runMove_in_flight {m : Move} {s t : State} (ho : s.twi.op ≠ .none) (he : m.isEngine = false)
    (hd : ¬m.Disables s) (h : runMove m s = .next t) :
    t.twi = { s.twi with wc := t.twi.wc, br := t.twi.br } := by
  have background : t.twi = s.twi → t.twi = { s.twi with wc := t.twi.wc, br := t.twi.br } := fun e => by rw [e]
  rcases runMove_access h with ⟨u, hu, ht⟩ | ⟨ans, rfl, -⟩ | ⟨rfl, -⟩ | ⟨rfl, -⟩ | ⟨x, y, z, rfl, -⟩
  · have htw : t.twi = u.twi := by rw [ht]
    rcases hu with ⟨-, rfl⟩ | ⟨w, i, hw, hdec, hi⟩
    · exact background htw
    · rw [htw]
      exact exec_in_flight ho (fun d e => hd ⟨w, d, hw, e ▸ hdec⟩) hi
  · cases he
  · exact background (runMove_background rfl h)
  · exact background (runMove_background rfl h)
  · exact background (runMove_background rfl h)

/-! ## Runs -/

/-- A run whose first step is known. -/
theorem core_run_of_step {s u : State} (h : step s = .next u) (n : Nat) :
    Sys2Proof.core.run (n + 1) s = Sys2Proof.core.run n u := by
  have hs : Sys2Proof.core.step s = .next u := h
  simp only [Host.Core.run]
  rw [hs]

/-- A run that goes on takes a first step. -/
theorem core_run_cases {s t : State} {n : Nat} (h : Sys2Proof.core.run (n + 1) s = .next t) :
    ∃ u, step s = .next u ∧ Sys2Proof.core.run n u = .next t := by
  simp only [Host.Core.run] at h
  cases hs : Sys2Proof.core.step s with
  | next u => rw [hs] at h; exact ⟨u, hs, h⟩
  | fault e => rw [hs] at h; cases h
  | refused e => rw [hs] at h; cases h

end Sys2Proof.Machine
end

