-- ==== Sys2Proof/Laws/PerInstr.lean ====
section
/-! SUPPORT. The family OpcodeRow: the word of every well-formed access is of its row of the opcode table (R52). One
lemma for each constructor of Instr. -/

namespace Sys2Proof.Laws.OpcodeRow

/-- The encoded word of a well-formed access meets word & mask == match of its row. -/
def Statement (i : Instr) : Prop :=
  i.wellFormed = true → ∃ r, opcodeTable[i.rowIndex]? = some r ∧ r.matchesWord (encode i) = true

theorem twiDisable (d : Byte) : Statement (.twiDisable d) := by
  refine fun h => ⟨_, rfl, ?_⟩
  revert d
  decide

theorem twiConfig (d : Byte) : Statement (.twiConfig d) := by
  refine fun h => ⟨_, rfl, ?_⟩
  revert d
  decide

theorem twiStart (d : Byte) : Statement (.twiStart d) := by
  refine fun h => ⟨_, rfl, ?_⟩
  revert d
  decide

theorem twiStop (d : Byte) : Statement (.twiStop d) := by
  refine fun h => ⟨_, rfl, ?_⟩
  revert d
  decide

theorem twiXfer (d : Byte) : Statement (.twiXfer d) := by
  refine fun h => ⟨_, rfl, ?_⟩
  revert d
  decide

theorem twiCmdReserved (d : Byte) : Statement (.twiCmdReserved d) := by
  refine fun h => ⟨_, rfl, ?_⟩
  revert d
  decide

theorem twiCtrlRd : Statement (.twiCtrlRd) := by
  exact fun _ => ⟨_, rfl, by decide⟩

theorem twiStatusWr (d : Byte) : Statement (.twiStatusWr d) := by
  refine fun _ => ⟨_, rfl, ?_⟩
  revert d
  decide

theorem twiStatusRd : Statement (.twiStatusRd) := by
  exact fun _ => ⟨_, rfl, by decide⟩

theorem twiDataWr (d : Byte) : Statement (.twiDataWr d) := by
  refine fun _ => ⟨_, rfl, ?_⟩
  revert d
  decide

theorem twiDataRd : Statement (.twiDataRd) := by
  exact fun _ => ⟨_, rfl, by decide⟩

theorem twiBrWr (d : Byte) : Statement (.twiBrWr d) := by
  refine fun _ => ⟨_, rfl, ?_⟩
  revert d
  decide

theorem twiBrRd : Statement (.twiBrRd) := by
  exact fun _ => ⟨_, rfl, by decide⟩

theorem dispDigitWr (n : Slot) (d : Byte) : Statement (.dispDigitWr n d) := by
  refine fun _ => ⟨_, rfl, ?_⟩
  show _ = true
  revert n d
  decide

theorem dispDigitRd (n : Slot) : Statement (.dispDigitRd n) := by
  refine fun _ => ⟨_, rfl, ?_⟩
  revert n
  decide

theorem dispStatusWr (d : Byte) : Statement (.dispStatusWr d) := by
  refine fun _ => ⟨_, rfl, ?_⟩
  revert d
  decide

theorem dispStatusRd : Statement (.dispStatusRd) := by
  exact fun _ => ⟨_, rfl, by decide⟩

theorem dispSelWr (d : Byte) : Statement (.dispSelWr d) := by
  refine fun _ => ⟨_, rfl, ?_⟩
  revert d
  decide

theorem dispSelRd : Statement (.dispSelRd) := by
  exact fun _ => ⟨_, rfl, by decide⟩

theorem dispSegWr (d : Byte) : Statement (.dispSegWr d) := by
  refine fun _ => ⟨_, rfl, ?_⟩
  revert d
  decide

theorem dispSegRd : Statement (.dispSegRd) := by
  exact fun _ => ⟨_, rfl, by decide⟩

theorem tmrCtrlWr (d : Byte) : Statement (.tmrCtrlWr d) := by
  refine fun _ => ⟨_, rfl, ?_⟩
  revert d
  decide

theorem tmrCtrlRd : Statement (.tmrCtrlRd) := by
  exact fun _ => ⟨_, rfl, by decide⟩

theorem tmrCountWr (d : Byte) : Statement (.tmrCountWr d) := by
  refine fun _ => ⟨_, rfl, ?_⟩
  revert d
  decide

theorem tmrCountRd : Statement (.tmrCountRd) := by
  exact fun _ => ⟨_, rfl, by decide⟩

theorem tmrFlagsWr (d : Byte) : Statement (.tmrFlagsWr d) := by
  refine fun _ => ⟨_, rfl, ?_⟩
  revert d
  decide

theorem tmrFlagsRd : Statement (.tmrFlagsRd) := by
  exact fun _ => ⟨_, rfl, by decide⟩

theorem rsvdWr (o : BitVec 1) (d : Byte) : Statement (.rsvdWr o d) := by
  refine fun _ => ⟨_, rfl, ?_⟩
  show _ = true
  revert o d
  decide

theorem rsvdRd (o : BitVec 1) : Statement (.rsvdRd o) := by
  refine fun _ => ⟨_, rfl, ?_⟩
  revert o
  decide

end Sys2Proof.Laws.OpcodeRow
end

