-- ==== Sys2Proof/Tests/Slice0.lean ====
section
/-! SUPPORT. The model's own tests and the witnesses of the obligations' hypotheses. Expected results are those of
spec/95_test_vectors.md (V-.., L1..), or read off the rule a test's docstring names. -/

namespace Sys2Proof.Tests

open Sys2Proof Sys2Proof.Machine

/-! ## Small states and views -/

/-- The state an outcome goes on in. -/
def nextState : Host.Outcome State Fault Refusal → Option State
  | .next t => some t
  | .fault _ => none
  | .refused _ => none

/-- EN = 1, no operation in flight, as the "before" column of V-T1 gives the rest. -/
def bus (p : Phase) (int : Bool) (status data : Byte) : State :=
  { State.reset with twi := { Twi.reset with en := true, phase := p, int := int, status := status, data := data } }

/-- EN = 1 with operation o in flight in phase p. -/
def flight (p : Phase) (o : TwiOp) : State :=
  { State.reset with twi := { Twi.reset with en := true, phase := p, op := o } }

/-- A timer with these flags. -/
def timerState (count : Byte) (ovf ovr tie : Bool) (cs : BitVec 3) : State :=
  { State.reset with tmr := { tie := tie, lock := cs != 0, cs := cs, count := count, ovr := ovr, ovf := ovf } }

/-- DIGIT = [d0, d1, 00, 00] at a cursor, with a tick pending. -/
def pending (d0 d1 : Byte) (c : Slot) : State :=
  { timerState 0x00 true false true 3 with
    disp := { Display.reset with digit := #v[d0, d1, 0x00, 0x00], cursor := c } }

/-- The reset state with moves to come. -/
def withMoves (agenda : List Move) : State := { State.reset with agenda := agenda }

/-- TWI_CTRL, TWI_STATUS and op after a host access: the "at write" columns of V-T1. -/
def atWrite (w : Word) (s : State) : Option (Byte × Byte × TwiOp) :=
  (nextState (hostWord w s)).map fun t => (t.twi.ctrlValue, t.twi.status, t.twi.op)

/-- The "after completion" columns of V-T1, with TWI_DATA. -/
structure Completed where
  ctrl : Byte
  status : Byte
  phase : Phase
  data : Byte
  events : List BusEvent
  deriving DecidableEq, Repr

/-- What an engine step leaves, for a slave that answers a and v. -/
def atCompletion (a : Bool) (v : Byte) (s : State) : Option Completed :=
  (nextState (engineStep ⟨a, v⟩ s)).map fun t => ⟨t.twi.ctrlValue, t.twi.status, t.twi.phase, t.twi.data, t.history⟩

/-- The value a read access returns. -/
def readValue (w : Word) (s : State) : Option Byte := (nextState (hostWord w s)).bind fun t => t.readLog.getLast?

/-- The value of one register after an access. -/
def regAfter (w : Word) (off : Offset) (s : State) : Option Byte := (nextState (hostWord w s)).map (·.readReg off)

/-- SEL, SEG, CURSOR and OVF after a service step. -/
def atService (s : State) : Option (BitVec 4 × Byte × Slot × Bool) :=
  (nextState (takeTick s)).map fun t => (t.disp.sel, t.disp.seg, t.disp.cursor, t.tmr.ovf)

/-- COUNT, OVF and OVR after a timer step. -/
def atTick (s : State) : Byte × Bool × Bool :=
  ((timerStep s).tmr.count, (timerStep s).tmr.ovf, (timerStep s).tmr.ovr)

/-! ## Well-formed instructions: one ill-formed term for each check -/

theorem test_wf_refuses_disable_with_en : (Instr.twiDisable 0x04).wellFormed = false := by decide
theorem test_wf_refuses_config_with_int : (Instr.twiConfig 0x84).wellFormed = false := by decide
theorem test_wf_refuses_start_with_sto : (Instr.twiStart 0xB4).wellFormed = false := by decide
theorem test_wf_refuses_stop_with_sta : (Instr.twiStop 0xB4).wellFormed = false := by decide
theorem test_wf_refuses_xfer_with_sta : (Instr.twiXfer 0xA4).wellFormed = false := by decide
theorem test_wf_refuses_reserved_without_sto : (Instr.twiCmdReserved 0xA4).wellFormed = false := by decide

/-! ## Decoding: words written out as W, Z, OFF, DATA (R47), a row of R52 each -/

theorem test_decode_ctrl_writes :
    decode 0b1_000_0000_11111011 = .ok (.twiDisable 0xFB) ∧ decode 0b1_000_0000_01000100 = .ok (.twiConfig 0x44) ∧
    decode 0b1_000_0000_11100100 = .ok (.twiStart 0xE4) ∧ decode 0b1_000_0000_10010100 = .ok (.twiStop 0x94) ∧
    decode 0b1_000_0000_11000100 = .ok (.twiXfer 0xC4) ∧ decode 0b1_000_0000_11110100 = .ok (.twiCmdReserved 0xF4) :=
  ⟨rfl, rfl, rfl, rfl, rfl, rfl⟩

theorem test_decode_twi_registers :
    decode 0b0_000_0000_00000000 = .ok .twiCtrlRd ∧ decode 0b1_000_0001_10100101 = .ok (.twiStatusWr 0xA5) ∧
    decode 0b0_000_0001_00000000 = .ok .twiStatusRd ∧ decode 0b1_000_0010_11010000 = .ok (.twiDataWr 0xD0) ∧
    decode 0b0_000_0010_00000000 = .ok .twiDataRd ∧ decode 0b1_000_0011_01001000 = .ok (.twiBrWr 0x48) ∧
    decode 0b0_000_0011_00000000 = .ok .twiBrRd :=
  ⟨rfl, rfl, rfl, rfl, rfl, rfl, rfl⟩

theorem test_decode_display :
    decode 0b1_000_0101_00000100 = .ok (.dispDigitWr 1 0x04) ∧ decode 0b0_000_0110_00000000 = .ok (.dispDigitRd 2) ∧
    decode 0b1_000_1000_10000000 = .ok (.dispStatusWr 0x80) ∧ decode 0b0_000_1000_00000000 = .ok .dispStatusRd ∧
    decode 0b1_000_1001_00001111 = .ok (.dispSelWr 0x0F) ∧ decode 0b0_000_1001_00000000 = .ok .dispSelRd ∧
    decode 0b1_000_1010_11111111 = .ok (.dispSegWr 0xFF) ∧ decode 0b0_000_1010_00000000 = .ok .dispSegRd :=
  ⟨rfl, rfl, rfl, rfl, rfl, rfl, rfl, rfl⟩

theorem test_decode_timer_and_reserved :
    decode 0b1_000_1011_10000011 = .ok (.tmrCtrlWr 0x83) ∧ decode 0b0_000_1011_00000000 = .ok .tmrCtrlRd ∧
    decode 0b1_000_1100_00010000 = .ok (.tmrCountWr 0x10) ∧ decode 0b0_000_1100_00000000 = .ok .tmrCountRd ∧
    decode 0b1_000_1101_00000011 = .ok (.tmrFlagsWr 0x03) ∧ decode 0b0_000_1101_00000000 = .ok .tmrFlagsRd ∧
    decode 0b1_000_1111_00010010 = .ok (.rsvdWr 1 0x12) ∧ decode 0b0_000_1110_00000000 = .ok (.rsvdRd 0) :=
  ⟨rfl, rfl, rfl, rfl, rfl, rfl, rfl, rfl⟩

/-- Rows 3 and 4 of the table of spec/95 section 2.2. -/
theorem test_decode_refuses_non_accesses :
    decode 0b0_000_0110_00000001 = .error .readWithData ∧ decode 0b1_001_0000_00000000 = .error .zNotZero :=
  ⟨rfl, rfl⟩

/-- The words of R52's TWI rows, from their encodings. -/
theorem test_encode_ctrl_writes :
    encode (.twiStart 0xA4) = 0x80A4 ∧ encode (.dispDigitRd 3) = 0x0700 ∧ encode (.rsvdRd 1) = 0x0F00 := by decide

/-! ## TWI accesses (V-T1 to V-T5) -/

/-- V-T1 rows 1, 9, 16. -/
theorem test_twiStart :
    atWrite 0x80A4 State.reset = some (0x24, 0xF8, .start) ∧
    atWrite 0x80A4 (bus .started true 0x08 0xFF) = some (0x24, 0xF8, .start) ∧
    atWrite 0x80A4 (bus .mr true 0x40 0xFF) = some (0x84, 0x00, .none) := by decide

/-- V-T1 rows 1, 9. -/
theorem test_start_completion :
    atCompletion false 0 (flight .idle .start) = some ⟨0x84, 0x08, .started, 0xFF, [.start]⟩ ∧
    atCompletion false 0 (flight .mt .start) = some ⟨0x84, 0x10, .started, 0xFF, [.rstart]⟩ := by decide

/-- V-T1 rows 2, 11, 15. -/
theorem test_twiStop :
    atWrite 0x8094 (bus .idle false 0xF8 0xFF) = some (0x14, 0xF8, .stop) ∧
    atWrite 0x8094 (bus .addrNack true 0x20 0xFF) = some (0x14, 0xF8, .stop) ∧
    atWrite 0x8094 (bus .mr true 0x40 0xFF) = some (0x84, 0x00, .none) := by decide

/-- V-T1 rows 2, 21. -/
theorem test_stop_completion :
    atCompletion false 0 (flight .idle .stop) = some ⟨0x04, 0xF8, .idle, 0xFF, []⟩ ∧
    atCompletion false 0 (flight .mrEnd .stop) = some ⟨0x04, 0xF8, .idle, 0xFF, [.stop]⟩ := by decide

/-- V-T1 rows 3, 6, 10, 12, 17, 28. -/
theorem test_twiXfer :
    atWrite 0x8084 State.reset = some (0x84, 0x00, .none) ∧
    atWrite 0x8084 (bus .started true 0x08 0xD1) = some (0x04, 0xF8, .sendAddr 0xD1) ∧
    atWrite 0x8084 (bus .addrNack true 0x20 0xFF) = some (0x84, 0x00, .none) ∧
    atWrite 0x80C4 (bus .mt true 0x18 0x37) = some (0x44, 0xF8, .sendData 0x37) ∧
    atWrite 0x80C4 (bus .mr true 0x40 0xFF) = some (0x44, 0xF8, .recv true) ∧
    atWrite 0x808C (bus .mt true 0x18 0x37) = some (0x04, 0xF8, .sendData 0x37) := by decide

/-- V-T1 rows 6, 8, 13, 17, 18 (row 17 with EA = 0, so TWI_CTRL shows bit 6 clear). -/
theorem test_transfer_completion :
    atCompletion true 0 (flight .started (.sendAddr 0xD1)) = some ⟨0x84, 0x40, .mr, 0xFF, [.addr 0xD1 true]⟩ ∧
    atCompletion false 0 (flight .started (.sendAddr 0xD0)) = some ⟨0x84, 0x20, .addrNack, 0xFF, [.addr 0xD0 false]⟩ ∧
    atCompletion false 0 (flight .mt (.sendData 0x37)) = some ⟨0x84, 0x30, .mt, 0xFF, [.write 0x37 false]⟩ ∧
    atCompletion false 0x5A (flight .mr (.recv true)) = some ⟨0x84, 0x50, .mr, 0x5A, [.read 0x5A true]⟩ ∧
    atCompletion false 0x5A (flight .mr (.recv false)) = some ⟨0x84, 0x58, .mrEnd, 0x5A, [.read 0x5A false]⟩ := by
  decide

/-- V-T1 rows 4, 5. -/
theorem test_twiCmdReserved :
    atWrite 0x80B4 State.reset = some (0x84, 0x00, .none) ∧ atWrite 0x80F4 State.reset = some (0xC4, 0x00, .none) := by
  decide

/-- V-T1 row 25. -/
theorem test_twiConfig : atWrite 0x8044 (bus .mt true 0x28 0xFF) = some (0xC4, 0x28, .none) := by decide

/-- V-T1 row 22: a command while an operation is in flight is ignored. -/
theorem test_busy_command_ignored :
    atWrite 0x80A4 (flight .mt (.sendData 0x37)) = some (0x04, 0xF8, .sendData 0x37) := by decide

/-- V-T1 rows 23, 26, 27. -/
theorem test_twiDisable :
    atWrite 0x8000 (flight .mt (.sendData 0x37)) = some (0x00, 0xF8, .none) ∧
    atWrite 0x800B (bus .idle false 0xF8 0xFF) = some (0x00, 0xF8, .none) ∧
    atWrite 0x8040 (bus .idle false 0xF8 0xFF) = some (0x40, 0xF8, .none) := by decide

/-- V-T1 rows 23, 24: RELEASE from MT, no event from IDLE. -/
theorem test_twiDisable_events :
    (nextState (hostWord 0x8000 (flight .mt (.sendData 0x37)))).map (·.history) = some [.release] ∧
    (nextState (hostWord 0x8000 (flight .idle .start))).map (·.history) = some [] := by decide

/-- V-T2 steps 1, 3. -/
theorem test_twiDataWr :
    regAfter 0x825A 0x2 (bus .mt true 0x18 0x37) = some 0x5A ∧
    regAfter 0x8266 0x2 (flight .mt (.sendData 0x5A)) = some 0xFF ∧
    regAfter 0x8266 0x0 (flight .mt (.sendData 0x5A)) = some 0x0C := by decide

/-- V-T4. -/
theorem test_twiStatusWr_twiBrWr :
    regAfter 0x8100 0x1 (bus .started true 0x08 0xFF) = some 0x08 ∧
    regAfter 0x8348 0x3 (bus .started true 0x08 0xFF) = some 0x48 := by decide

/-- V-T5: a read of TWI_DATA during a receive; and R69, R70, R75 on a completed START. -/
theorem test_twi_reads :
    readValue 0x0200 { flight .mr (.recv false) with twi := { (flight .mr (.recv false)).twi with data := 0x5A } }
      = some 0x5A ∧
    readValue 0x0000 (bus .started true 0x08 0xFF) = some 0x84 ∧
    readValue 0x0100 (bus .started true 0x08 0xFF) = some 0x08 ∧ readValue 0x0300 State.reset = some 0x00 := by decide

/-! ## Display accesses and the service step (V-D1 to V-D3) -/

/-- V-D2 steps 1 to 3. -/
theorem test_dispDigitWr :
    regAfter 0x8411 0x4 State.reset = some 0x11 ∧ regAfter 0x8412 0x4 State.reset = some 0x10 ∧
    regAfter 0x8412 0x8 State.reset = some 0x80 ∧ regAfter 0x87FF 0x7 State.reset = some 0x10 := by decide

/-- V-D2 steps 4, 5. -/
theorem test_dispStatusWr :
    regAfter 0x887F 0x8 { State.reset with disp := { Display.reset with derr := true } } = some 0x80 ∧
    regAfter 0x8880 0x8 { State.reset with disp := { Display.reset with derr := true } } = some 0x00 := by decide

/-- V-D2 steps 6, 7, on lines a service step has driven. -/
theorem test_disp_lines_ignore_writes :
    regAfter 0x8AFF 0xA { State.reset with disp := { Display.reset with sel := 0x2, seg := 0xE6 } } = some 0xE6 ∧
    regAfter 0x890F 0x9 { State.reset with disp := { Display.reset with sel := 0x2, seg := 0xE6 } } = some 0x02 := by
  decide

/-- P3 rows 9, 10 and 20: the registers after the second service step. -/
theorem test_display_reads :
    readValue 0x0400 (pending 0x01 0x04 2) = some 0x01 ∧ readValue 0x0800 (pending 0x01 0x04 2) = some 0x02 ∧
    readValue 0x0900 { State.reset with disp := { Display.reset with sel := 0x8, seg := 0x3F } } = some 0x08 ∧
    readValue 0x0A00 { State.reset with disp := { Display.reset with sel := 0x8, seg := 0x3F } } = some 0x3F := by
  decide

/-- V-D3: cursors 0, 1 and 3. -/
theorem test_service_step :
    atService (pending 0x01 0x04 0) = some (0x1, 0x06, 1, false) ∧
    atService (pending 0x01 0x04 1) = some (0x2, 0xE6, 2, false) ∧
    atService (pending 0x01 0x04 3) = some (0x8, 0x3F, 0, false) := by decide

/-- V-D1: BLANK and DASH at position 1. -/
theorem test_service_blank_and_dash :
    atService (pending 0x01 0x10 1) = some (0x2, 0x80, 2, false) ∧
    atService (pending 0x01 0x11 1) = some (0x2, 0xC0, 2, false) := by decide

/-! ## Timer accesses, the timer step and the reserved offsets (V-M1 to V-M5) -/

/-- V-M1 steps 1 to 4. -/
theorem test_tmrCtrlWr :
    regAfter 0x8B00 0xB State.reset = some 0x00 ∧ regAfter 0x8B05 0xB State.reset = some 0x45 ∧
    regAfter 0x8B87 0xB (timerState 0 false false false 5) = some 0xC5 ∧
    regAfter 0x8B78 0xB (timerState 0 false false true 5) = some 0x45 := by decide

/-- V-M2. -/
theorem test_timer_step :
    atTick (timerState 0x7F false false true 3) = (0x80, false, false) ∧
    atTick (timerState 0xFF false false false 3) = (0x00, true, false) ∧
    atTick (timerState 0xFF true false false 3) = (0x00, true, true) ∧
    atTick (timerState 0xFF true false true 3) = (0xFF, true, false) ∧
    atTick (timerState 0xFF true false false 0) = (0xFF, true, false) := by decide

/-- V-M4. -/
theorem test_tmrFlagsWr :
    regAfter 0x8D02 0xD (timerState 0 true true false 3) = some 0x01 ∧
    regAfter 0x8DFC 0xD (timerState 0 true false false 3) = some 0x01 ∧
    regAfter 0x8D01 0xD (timerState 0 true false false 3) = some 0x00 := by decide

/-- V-M5. -/
theorem test_tmrCountWr : regAfter 0x8C10 0xC (timerState 0x7F false false false 3) = some 0x7F := by decide

/-- P3 row 6 and R104, R107. -/
theorem test_timer_reads :
    readValue 0x0B00 (timerState 0x7F true true true 3) = some 0xC3 ∧
    readValue 0x0C00 (timerState 0x7F true true true 3) = some 0x7F ∧
    readValue 0x0D00 (timerState 0x7F true true true 3) = some 0x03 := by decide

/-- Table 2.2: reserved offsets. -/
theorem test_reserved :
    nextState (hostWord 0x8F12 State.reset) = some State.reset ∧ readValue 0x0E00 State.reset = some 0x00 := by decide

/-! ## The reference slave (table 2.6) and BCD (L1.1) -/

/-- A slave with three registers 0x25, 0x59, 0x13. -/
def slave (ptr : Nat) (frame : SlaveFrame) : RtcSlave :=
  { addr := 0x68, regs := [0x25, 0x59, 0x13], ptr := ptr, frame := frame }

/-- The slave P6 starts beside, its halt flag set. -/
def haltedSlave : RtcSlave := { slave 0 .free with regs := [0xA5, 0x30, 0x52] }

/-- R115: at the start of a run the frame is FREE, whatever frame the start names, and regs and ptr are kept. -/
theorem test_launch_frame_free :
    (State.launch (.rtc (slave 2 .rData)) .noScript Config.defaultParams []).env = .rtc (slave 2 .free) := by decide

/-- R126: the pair of byte and ack, and the byte taken out of it again. -/
theorem test_readByte_pair :
    (exprByteAck (.var 1) true).eval [(1, 0x5A)] = 0x15A ∧ (exprByteAck (.var 1) false).eval [(1, 0x5A)] = 0x05A ∧
    (exprByteOf (.var 3)).eval [(3, 0x15A)] = 0x5A := by decide

/-- Rows 2, 3, 6 and 7 of table 2.6. -/
theorem test_slave_addressing :
    (slave 0 .waitAddr).onAddr 0xD0 = (true, slave 0 .wPtr) ∧
    (slave 0 .waitAddr).onAddr 0xA0 = (false, slave 0 .ignore) ∧
    (slave 0 .ignore).onWrite 0x01 = (false, slave 0 .ignore) ∧
    (slave 0 .ignore).onRead false = some (0xFF, slave 0 .ignore) := by decide

/-- R119 and R120 with the pointer's wrap, after rows 4, 5, 8 and 9 of table 2.6. -/
theorem test_slave_registers :
    (slave 0 .wPtr).onWrite 0x45 = (true, slave 0 .wData) ∧
    (slave 2 .wData).onWrite 0xAA = (true, { slave 0 .wData with regs := [0x25, 0x59, 0xAA] }) ∧
    (slave 1 .rData).onRead true = some (0x59, slave 2 .rData) ∧
    (slave 2 .rData).onRead false = some (0x13, slave 0 .ignore) := by decide

/-- L1.1. -/
theorem test_bcd_decode : [0x59, 0x13, 0x00, 0x23, 0x53, 0xA5].map bcdDec = [59, 13, 0, 23, 53, 25] := by decide

/-- L1.2's samples; and the host expressions of dec and enc. -/
theorem test_bcd_encode :
    [0, 9, 10, 23, 59].map bcdEnc = [0x00, 0x09, 0x10, 0x23, 0x59] ∧
    (exprDec (.var 0)).eval [(0, 0x53)] = 53 ∧ (exprEnc (.var 0)).eval [(0, 59)] = 0x59 := by decide

/-! ## Witnesses: for every obligation with hypotheses, states and operands that meet them -/

theorem witness_StepRunsDecodedAccess :
    (withMoves [.host (.word 0x80A4)]).Legal ∧
    (withMoves [.host (.word 0x80A4)]).agenda = .host (.word 0x80A4) :: [] ∧
    decode 0x80A4 = .ok (.twiStart 0xA4) ∧ State.reset.Legal ∧
    decodeTableWord 16 0x8FFF = some (.rsvdWr 1 0xFF) := ⟨by decide, rfl, rfl, by decide, rfl⟩

theorem witness_NonAccessWordsAreRefused :
    (withMoves [.host (.word 0xF000)]).Legal ∧ decode 0xF000 = .error .zNotZero ∧
    (withMoves [.host (.word 0x0FFF)]).Legal ∧ decode 0x0FFF = .error .readWithData :=
  ⟨by decide, rfl, by decide, rfl⟩

theorem witness_DecodeOfEncode :
    (Instr.twiDisable 0xFB).wellFormed = true ∧ (Instr.twiStart 0xEF).wellFormed = true ∧
    (Instr.dispDigitWr 3 0xFF).wellFormed = true := by decide

theorem witness_EncodeOfDecode : decode 0x87FF = .ok (.dispDigitWr 3 0xFF) ∧ decode 0x0F00 = .ok (.rsvdRd 1) :=
  ⟨rfl, rfl⟩

theorem witness_OpcodeRowsDecideDecoding :
    opcodeTable[0]? = some ⟨"TWI_DISABLE", 0x8000, 0xFF04⟩ ∧
    (⟨"TWI_DISABLE", 0x8000, 0xFF04⟩ : OpcodeRow).matchesWord 0x80FB = true ∧
    opcodeTable[28]? = some ⟨"RSVD_RD", 0x0E00, 0xFEFF⟩ ∧
    (⟨"RSVD_RD", 0x0E00, 0xFEFF⟩ : OpcodeRow).matchesWord 0x0F00 = true := by decide

/-- A window at 0x100: the last byte below it, the first above it, and two 2-byte accesses that straddle its ends. -/
theorem witness_HostAddressesReachRegisters :
    let s : State := { State.reset with params := { Config.defaultParams with base := 0x100 } }
    0xFF + 1 ≤ s.params.base ∧ s.params.base + 16 ≤ 0x110 ∧
    (2 ≤ 2 ∧ s.params.base < 0xFF + 2 ∧ 0xFF < s.params.base + 16) ∧
    (s.params.base < 0x10F + 2 ∧ 0x10F < s.params.base + 16) := by decide

/-- Busy, in MR, idle, and in an owned phase; the row's smallest and largest words. -/
theorem witness_TwiStartIssuesStart :
    (0x80A4#16 &&& 0xFFB4 = 0x80A4 ∧ 0x80EF#16 &&& 0xFFB4 = 0x80A4) ∧ (flight .idle .start).twi.op ≠ .none ∧
    ((bus .mr true 0x40 0xFF).twi.op = .none ∧ (bus .mr true 0x40 0xFF).twi.phase = .mr) ∧
    (State.reset.twi.op = .none ∧ State.reset.twi.phase ≠ .mr) ∧
    ((bus .mrEnd true 0x58 0xFF).twi.op = .none ∧ (bus .mrEnd true 0x58 0xFF).twi.phase ≠ .mr) := by decide

theorem witness_TwiStopIssuesStop :
    (0x8094#16 &&& 0xFFB4 = 0x8094 ∧ 0x80DF#16 &&& 0xFFB4 = 0x8094) ∧ (flight .idle .stop).twi.op ≠ .none ∧
    ((bus .mr true 0x40 0xFF).twi.op = .none ∧ (bus .mr true 0x40 0xFF).twi.phase = .mr) ∧
    (State.reset.twi.op = .none ∧ State.reset.twi.phase ≠ .mr) := by decide

/-- Busy, and free in each of the six phases. -/
theorem witness_TwiXferByPhase :
    (0x8084#16 &&& 0xFFB4 = 0x8084 ∧ 0x80CF#16 &&& 0xFFB4 = 0x8084) ∧ (flight .mr (.recv true)).twi.op ≠ .none ∧
    (∀ p ∈ [Phase.idle, .started, .addrNack, .mt, .mr, .mrEnd],
      (bus p true 0x08 0xFF).twi.op = .none ∧ (bus p true 0x08 0xFF).twi.phase = p) ∧
    ∃ t, exec (.twiXfer 0xC4) (bus .mt true 0x28 0x37) = .next { bus .mt true 0x28 0x37 with twi := t } ∧
      t.op ≠ .none := ⟨by decide, by decide, by decide, _, rfl, by decide⟩

theorem witness_TwiCmdReservedIsIllegal :
    0x80FF#16 &&& 0xFFB4 = 0x80B4 ∧ (flight .mt (.sendData 0x37)).twi.op ≠ .none ∧ State.reset.twi.op = .none := by
  decide

theorem witness_TwiConfigSetsEnAndEa :
    0x807F#16 &&& 0xFF84 = 0x8004 ∧ (flight .mt (.sendData 0x37)).twi.op ≠ .none ∧ State.reset.twi.op = .none := by
  decide

theorem witness_TwiDisableReleases : 0x8000#16 &&& 0xFF04 = 0x8000 ∧ 0x80FB#16 &&& 0xFF04 = 0x8000 := by decide

theorem witness_StatusAndCountIgnoreWrites :
    0x81FF#16 &&& 0xFF00 = 0x8100 ∧ 0x8CFF#16 &&& 0xFF00 = 0x8C00 := by decide

theorem witness_ReservedSpaceReadsZero :
    0x8E00#16 &&& 0xFE00 = 0x8E00 ∧ 0x8FFF#16 &&& 0xFE00 = 0x8E00 ∧ 0x0E00#16 &&& 0xFEFF = 0x0E00 ∧
    0x0F00#16 &&& 0xFEFF = 0x0E00 ∧ 0xA7#8 &&& 0xFC = 0xA4#8 &&& 0xFC ∧ 0xFF#8 &&& 0x83 = 0x83#8 &&& 0x83 ∧
    0xFF#8 &&& 0x0F = 0x0F#8 &&& 0x0F ∧ 0xFF#8 &&& 0xC7 = 0xC7#8 &&& 0xC7 ∧ 0xFF#8 &&& 0x03 = 0x03#8 &&& 0x03 := by
  decide

theorem witness_TwiDataWriteGuarded :
    0x82FF#16 &&& 0xFF00 = 0x8200 ∧ (flight .mr (.recv false)).twi.op ≠ .none ∧ State.reset.twi.op = .none := by decide

theorem witness_TwiBrStoredWithoutEffect :
    0x83FF#16 &&& 0xFF00 = 0x8300 ∧ Instr.twiStart 0xA4 ≠ .twiBrRd ∧ (∀ e, Instr.twiStart 0xA4 ≠ .twiBrWr e) ∧
    (∃ t, exec (.twiStart 0xA4) State.reset = .next t) ∧
    (Move.twiEngine ⟨true, 0x00⟩).isInternal = true ∧
    ∃ t, runMove (.twiEngine ⟨true, 0x00⟩) (flight .mr (.recv true)) = .next t :=
  ⟨by decide, by decide, nofun, ⟨_, rfl⟩, rfl, ⟨_, rfl⟩⟩

theorem witness_TwiReadsReturnRegisters :
    0x0000#16 &&& 0xFFFF = 0x0000 ∧ 0x0100#16 &&& 0xFFFF = 0x0100 ∧ 0x0200#16 &&& 0xFFFF = 0x0200 ∧
    0x0300#16 &&& 0xFFFF = 0x0300 := by decide

theorem witness_EngineCompletesOperationInFlight :
    (State.reset.Legal ∧ State.reset.twi.op = .none) ∧
    ((flight .idle .stop).Legal ∧ (flight .idle .stop).twi.op ≠ .none) ∧
    ((flight .mr (.recv true)).Legal ∧ (flight .mr (.recv true)).twi.op ≠ .none) := by decide

theorem witness_StartCompletion :
    (flight .idle .start).twi.op = .start ∧ (flight .mt .start).twi.op = .start := by decide

theorem witness_StopCompletion :
    (flight .idle .stop).twi.op = .stop ∧ (flight .mt .stop).twi.op = .stop := by decide

theorem witness_AddressCompletion :
    (flight .started (.sendAddr 0xD1)).twi.op = .sendAddr 0xD1 ∧
    (flight .started (.sendAddr 0xD1)).env.addr 0xD1 ⟨false, 0x00⟩ = (false, .generic) ∧
    (BusEnv.rtc (slave 0 .waitAddr)).addr 0xD1 ⟨false, 0x00⟩ = (true, .rtc (slave 0 .rData)) := by decide

theorem witness_DataCompletion :
    (flight .mt (.sendData 0x37)).twi.op = .sendData 0x37 ∧
    (flight .mt (.sendData 0x37)).env.write 0x37 ⟨true, 0x00⟩ = (true, .generic) ∧
    (BusEnv.rtc (slave 0 .ignore)).write 0x37 ⟨true, 0x00⟩ = (false, .rtc (slave 0 .ignore)) := by decide

theorem witness_ReceiveCompletion :
    (flight .mr (.recv false)).twi.op = .recv false ∧
    (flight .mr (.recv false)).env.read false ⟨false, 0x5A⟩ = some (0x5A, .generic) ∧
    (BusEnv.rtc (slave 2 .rData)).read true ⟨false, 0x5A⟩ = some (0x13, .rtc (slave 0 .rData)) := by decide

/-- Every framing state, and the pointer at its last register. -/
theorem witness_ReferenceSlaveCalls :
    (slave 2 .waitAddr).ptr < (slave 2 .waitAddr).regs.length ∧
    ((slave 2 .waitAddr).frame = .waitAddr ∧ (0xD1#8).extractLsb' 1 7 = (slave 2 .waitAddr).addr) ∧
    ¬((slave 2 .waitAddr).frame = .waitAddr ∧ (0xA0#8).extractLsb' 1 7 = (slave 2 .waitAddr).addr) ∧
    (slave 2 .wPtr).frame = .wPtr ∧ (slave 2 .wData).frame = .wData ∧
    ((slave 2 .ignore).frame ≠ .wPtr ∧ (slave 2 .ignore).frame ≠ .wData) ∧
    ((slave 2 .rData).frame = .rData ∧ (slave 2 .rData).regs[(slave 2 .rData).ptr]? = some 0x13) ∧
    (slave 2 .free).frame ≠ .rData := by decide

theorem witness_RtcClockChangesOnlyTimeRegisters :
    State.reset.env = .generic ∧
    (let s : State := { State.reset with env := .rtc (slave 0 .free) }
     s.env = .rtc (slave 0 .free) ∧ 3 ≤ (slave 0 .free).regs.length ∧ bcdTime 0x59 0x59 0x23 = true ∧
     bcdTime 0x5A 0x59 0x23 = false ∧
     ∃ v, (slave 0 .free).regs[0]? = some v ∧ v.getLsbD 7 = false) ∧
    (let s : State := { State.reset with env := .rtc haltedSlave }
     s.env = .rtc haltedSlave ∧ ∃ v, haltedSlave.regs[0]? = some v ∧ v.getLsbD 7 = true) :=
  ⟨rfl, ⟨rfl, by decide, by decide, by decide, 0x25, rfl, rfl⟩, rfl, 0xA5, rfl, rfl⟩

theorem witness_DecoderTotalOnLegalCodes :
    (0x00#8 ≤ 0x11 ∧ (0x00#8).toNat < 16) ∧ (0x0F#8 ≤ 0x11 ∧ (0x0F#8).toNat < 16) ∧ 0x10#8 ≤ 0x11 ∧ 0x11#8 ≤ 0x11 := by
  decide

theorem witness_DigitWriteChecked :
    0x87FF#16 &&& 0xFC00 = 0x8400 ∧ 0x11#8 < 0x12 ∧ 0x11#8 ≤ 0x11 ∧ (0 : Slot) ≠ 3 := by decide

theorem witness_DispStatusWriteClearsDerr :
    0x88FF#16 &&& 0xFF00 = 0x8800 ∧ (0x80#8).getLsbD 7 = true ∧ (0x7F#8).getLsbD 7 = false := by decide

theorem witness_DisplayReadsReturnRegisters :
    0x0400#16 &&& 0xFCFF = 0x0400 ∧ 0x0700#16 &&& 0xFCFF = 0x0400 ∧ 0x0800#16 &&& 0xFFFF = 0x0800 ∧
    0x0900#16 &&& 0xFFFF = 0x0900 ∧ 0x0A00#16 &&& 0xFFFF = 0x0A00 := by decide

theorem witness_ServiceStepDrivesCursor :
    (State.reset.Legal ∧ ¬(State.reset.tmr.ovf = true ∧ State.reset.tmr.tie = true)) ∧
    ((pending 0x01 0x04 3).Legal ∧ (pending 0x01 0x04 3).tmr.ovf = true ∧ (pending 0x01 0x04 3).tmr.tie = true) := by
  decide

theorem witness_ServicePinOrder :
    (pending 0x01 0x04 1).tmr.ovf = true ∧ (pending 0x01 0x04 1).tmr.tie = true ∧
    ∃ t, takeTick (pending 0x01 0x04 1) = .next t := ⟨rfl, rfl, _, rfl⟩

theorem witness_DecimalPointOnlyAtPositionOne :
    (∃ t, takeTick (pending 0x01 0x04 1) = .next t ∧ t.disp.seg.getLsbD 7 = true) ∧
    ∃ t, takeTick (pending 0x01 0x04 0) = .next t ∧ t.disp.seg.getLsbD 7 = false := ⟨⟨_, rfl, rfl⟩, ⟨_, rfl, rfl⟩⟩

/-- One service step has been taken, and another is next. -/
theorem witness_ServiceStepsVisitPositionsInTurn :
    let s : State := { pending 0x01 0x04 1 with pinLog := [⟨0, 0⟩, ⟨1, 0⟩, ⟨1, 0x06⟩], agenda := [.display] }
    s.pinLog.length = 3 * 1 ∧ s.disp.cursor.toNat = 1 % 4 ∧
    (∀ (k : Nat) (l : Lines), s.pinLog[3 * k + 2]? = some l → l.sel.toNat = 2 ^ (k % 4)) ∧
    ∃ t, step s = .next t := by
  refine ⟨rfl, rfl, ?_, _, rfl⟩
  intro k l h
  match k, h with
  | 0, h => cases h; rfl
  | n + 1, h =>
    have hn : (pending 0x01 0x04 1).pinLog.length = 0 := rfl
    have := (List.getElem?_eq_some_iff.mp h).1
    simp at this
    omega

theorem witness_TimerControlWriteLocks :
    0x8BFF#16 &&& 0xFF00 = 0x8B00 ∧ (timerState 0 false false false 5).tmr.lock = true ∧
    State.reset.tmr.lock = false := by decide

theorem witness_TimerFlagsWriteOneToClear : 0x8DFF#16 &&& 0xFF00 = 0x8D00 := by decide

theorem witness_TimerReadsReturnRegisters :
    0x0B00#16 &&& 0xFFFF = 0x0B00 ∧ 0x0C00#16 &&& 0xFFFF = 0x0C00 ∧ 0x0D00#16 &&& 0xFFFF = 0x0D00 := by decide

/-- Stopped by CS, stopped by a pending tick, counting, and overflowing. -/
theorem witness_TimerStepCounts :
    State.reset.tmr.cs = 0 ∧
    ((timerState 0x7F true false true 3).tmr.ovf = true ∧ (timerState 0x7F true false true 3).tmr.tie = true) ∧
    (let t := (timerState 0xFE false false true 3).tmr
     t.cs ≠ 0 ∧ ¬(t.ovf = true ∧ t.tie = true) ∧ t.count ≠ 0xFF) ∧
    (let t := (timerState 0xFF true false false 3).tmr
     t.cs ≠ 0 ∧ ¬(t.ovf = true ∧ t.tie = true) ∧ t.count = 0xFF) := by decide

theorem witness_OverflowPeriodIs256Steps :
    let s : State := { timerState 0x7F true false false 3 with agenda := List.replicate 256 .timer ++ [.display] }
    s.Legal ∧ s.tmr.cs ≠ 0 ∧ s.tmr.tie = false ∧ s.agenda = List.replicate 256 .timer ++ [.display] :=
  ⟨by decide, by decide, rfl, rfl⟩

theorem witness_TicksLostOnlyWhileMasked :
    let s : State := { timerState 0xFF true false false 3 with agenda := [.timer] }
    ∃ t, step s = .next t ∧ s.tmr.ovr = false ∧ t.tmr.ovr = true := ⟨_, rfl, rfl, rfl⟩

theorem witness_MaskedTickStaysPending :
    let s := timerState 0xFF true false false 3
    s.Legal ∧ s.tmr.tie = false ∧ s.tmr.ovf = true ∧ s.tmr.cs ≠ 0 ∧ (0x80#8).getLsbD 7 = true := by decide

theorem witness_ReadsChangeNothing : Instr.twiCtrlRd.isRead = true ∧ (Instr.rsvdRd 1).isRead = true := by decide

/-- A TWI_CTRL write with a register that is neither TWI_CTRL nor TWI_STATUS, a TWI_DATA write, a digit write. -/
theorem witness_WritesChangeOnlyTheirRegisters :
    (∃ t, exec (.twiStart 0xA4) State.reset = .next t) ∧ (Instr.twiStart 0xA4).isRead = false ∧
    (0x2 : Offset) ≠ (Instr.twiStart 0xA4).offset ∧ (∀ d, Instr.twiStart 0xA4 ≠ .twiDisable d) ∧
    (∃ t, exec (.twiDataWr 0x37) State.reset = .next t) ∧ (Instr.twiDataWr 0x37).isRead = false ∧
    (0x1 : Offset) ≠ (Instr.twiDataWr 0x37).offset ∧
    (∃ t, exec (.dispDigitWr 3 0x12) State.reset = .next t) ∧ (Instr.dispDigitWr 3 0x12).isRead = false ∧
    (0x6 : Offset) ≠ (Instr.dispDigitWr 3 0x12).offset ∧ (Instr.dispDigitWr 3 0x12).offset ≠ 0x0 :=
  ⟨⟨_, rfl⟩, rfl, by decide, nofun, ⟨_, rfl⟩, rfl, by decide, ⟨_, rfl⟩, rfl, by decide, by decide⟩

theorem witness_EveryAccessCompletes :
    let s : State := { flight .mr (.recv true) with env := .rtc (slave 2 .rData), agenda := [.twiEngine ⟨true, 0⟩] }
    s.Legal ∧ s.agenda = .twiEngine ⟨true, 0⟩ :: [] ∧ (Move.twiEngine ⟨true, 0⟩).isInternal = true :=
  ⟨by decide, rfl, rfl⟩

theorem witness_UnitsDoNotInterfere :
    (∃ t, runMove .timer (timerState 0xFF false false true 3) = .next t) ∧
    (∃ t, runMove .display (pending 0x01 0x04 0) = .next t) ∧
    ∃ t, engineStep ⟨true, 0⟩ (flight .started (.sendAddr 0xD0)) = .next t := ⟨⟨_, rfl⟩, ⟨_, rfl⟩, ⟨_, rfl⟩⟩

theorem witness_OnlyServiceMovesTheLines :
    let s : State := { pending 0x01 0x04 0 with agenda := [.display] }
    0x89FF#16 &&& 0xFF00 = 0x8900 ∧ 0x8AFF#16 &&& 0xFF00 = 0x8A00 ∧
    ∃ t, step s = .next t ∧ t.disp.cursor ≠ s.disp.cursor ∧ t.disp.sel ≠ s.disp.sel ∧ t.disp.seg ≠ s.disp.seg :=
  ⟨by decide, by decide, _, rfl, by decide, by decide, by decide⟩

/-- Accesses that do raise a report: E1, E4 and E5. -/
theorem witness_OneErrorReportPerAccess :
    (∃ t, exec (.twiXfer 0x84) State.reset = .next t ∧ t.twi.status = 0x00) ∧
    (∃ t, exec (.twiDataWr 0x66) (flight .mt (.sendData 0x5A)) = .next t ∧ t.twi.wc = true) ∧
    ∃ t, exec (.dispDigitWr 0 0x12) State.reset = .next t ∧ t.disp.derr = true :=
  ⟨⟨_, rfl, rfl⟩, ⟨_, rfl, rfl⟩, ⟨_, rfl, rfl⟩⟩

theorem witness_StepKeepsLegality :
    ∃ t, step { flight .mr (.recv false) with agenda := [.twiEngine ⟨false, 0x5A⟩] } = .next t := ⟨_, rfl⟩

/-- A state in the middle of a write, about to complete a data byte. -/
theorem witness_StepKeepsInvariant :
    let s : State := { flight .mt (.sendData 0x37) with
      history := [.start, .addr 0xD0 true], agenda := [.twiEngine ⟨true, 0⟩] }
    s.Inv ∧ ∃ t, step s = .next t :=
  ⟨⟨by decide, by decide, .inl rfl, rfl, rfl⟩, _, rfl⟩

theorem witness_SelectLinesStayOneHot :
    let s : State := { pending 0x01 0x04 1 with
      disp := { (pending 0x01 0x04 1).disp with sel := 0x1 }, agenda := [.display] }
    SelectOneHot s.disp.sel ∧ s.agenda = .display :: [] ∧ s.tmr.ovf = true ∧ s.tmr.tie = true ∧
    ∃ t, step s = .next t ∧ t.disp.sel ≠ s.disp.sel := ⟨by decide, rfl, rfl, rfl, _, rfl, by decide⟩

/-- V-T6: the histories of P1 and of P5's open prefix. -/
theorem witness_PhaseMachineAcceptsOnlyTheGrammar :
    busPhase [.start, .addr 0xD0 true, .write 0x01 true, .write 0x00 true, .stop] = some .idle ∧
    busPhase [.start, .addr 0xA0 false, .rstart] = some .started ∧
    busPhase [.start, .read 0x13 false] = none ∧
    busPhase [.start, .addr 0xD1 true, .read 0x13 true, .stop] = none := by decide

/-- A run of three moves that leaves an open transaction. -/
theorem witness_BusHistoriesAreGrammatical :
    ∃ t, Sys2Proof.core.run 2
      (State.launch .generic .noScript Config.defaultParams [.host (.word 0x80A4), .twiEngine ⟨true, 0⟩]) = .next t ∧
      t.history = [.start] := ⟨_, rfl, rfl⟩

/-- A receive in flight; before the engine's move a count, a read of TWI_CTRL, a TWI_DATA write that collides, and a
TWI_START that is ignored. -/
theorem witness_OperationCompletesUnderBusProgress :
    let pre : List Move := [.timer, .host (.word 0x0000), .host (.word 0x8266), .host (.word 0x80A4)]
    let s : State := { flight .mr (.recv true) with agenda := pre ++ .twiEngine ⟨true, 0⟩ :: [] }
    s.Legal ∧ s.twi.op ≠ .none ∧ s.agenda = pre ++ .twiEngine ⟨true, 0⟩ :: [] ∧ (∀ m ∈ pre, m.isEngine = false) ∧
    (∀ (k : Nat) (u : State) (m : Move) (later : List Move), k < pre.length →
      Sys2Proof.core.run k s = .next u → u.agenda = m :: later → ¬m.Disables u) ∧
    (∀ m ∈ pre, m.isBackground = true ∨ ∃ w i, m = .host (.word w) ∧ decode w = .ok i) ∧
    ∃ u, Sys2Proof.core.run pre.length s = .next u ∧ u.twi.wc = true := by
  refine ⟨by decide, by decide, rfl, by decide, ?_, ?_, _, rfl, rfl⟩
  · intro k u m later hk hr ha hd
    obtain ⟨w, d, hw, hdec⟩ := hd
    match k, hk with
    | 0, _ => cases hr; cases ha; cases hw
    | 1, _ => cases hr; cases ha; cases hw; cases hdec
    | 2, _ => cases hr; cases ha; cases hw; cases hdec
    | 3, _ => cases hr; cases ha; cases hw; cases hdec
  · intro m hm
    simp only [List.mem_cons, List.not_mem_nil, or_false] at hm
    rcases hm with rfl | rfl | rfl | rfl
    · exact .inl rfl
    · exact .inr ⟨_, .twiCtrlRd, rfl, rfl⟩
    · exact .inr ⟨_, .twiDataWr 0x66, rfl, rfl⟩
    · exact .inr ⟨_, .twiStart 0xA4, rfl, rfl⟩

/-- The same with background moves only. -/
theorem witness_OperationCompletesUnderBusProgress_background :
    ∀ m ∈ [Move.timer, .display], m.isBackground = true := by decide

/-- A frame whose next statement is a write, one whose next statement is a read, and two whose next statement is a POLL
of TWI_CTRL: one that ends, INT being 0, and one that goes on. -/
theorem witness_ScriptAccessesAreAccessWords :
    let f : HostFrame :=
      { code := [.w 0x4 (.lit 0x105), .r 0x4 7, .poll 0x0 (.lit 0x10) (.lit 0x00), .poll 0x0 (.lit 0x80) (.lit 0x80)],
        pc := 0, vars := [], result := 0, onFail := none }
    let s : State := { State.reset with host := { HostCpu.noScript with frames := [f] } }
    s.host.frames = f :: [] ∧ f.code[f.pc]? = some (.w 0x4 (.lit 0x105)) ∧
    (let g : HostFrame := { f with pc := 1 }
     g.code[g.pc]? = some (.r 0x4 7)) ∧
    (let g : HostFrame := { f with pc := 2 }
     g.code[g.pc]? = some (.poll 0x0 (.lit 0x10) (.lit 0x00)) ∧ (s.readReg 0x0).toNat &&& 0x10 = 0x00) ∧
    (let g : HostFrame := { f with pc := 3 }
     g.code[g.pc]? = some (.poll 0x0 (.lit 0x80) (.lit 0x80)) ∧ (s.readReg 0x0).toNat &&& 0x80 ≠ 0x80) := by decide

/-- A run that starts with a data byte in flight and completes it. -/
def completingRun : Nat → State
  | 0 => flight .mt (.sendData 0x37)
  | _ + 1 => { completeData 0x37 ⟨true, 0⟩ (flight .mt (.sendData 0x37)) with agenda := [] }

theorem witness_EveryOperationEndsUnderBusProgress :
    IsRun completingRun (fun _ => .twiEngine ⟨true, 0⟩) ∧
    BusProgress completingRun (fun _ => .twiEngine ⟨true, 0⟩) ∧ (completingRun 0).twi.op ≠ .none :=
  ⟨fun n => match n with
    | 0 => rfl
    | _ + 1 => rfl, fun n => ⟨n, Nat.le_refl n, .inr ⟨_, rfl⟩⟩, by decide⟩

/-- R113, R152: without BUS_PROGRESS a run in which an operation never completes is admitted. -/
theorem test_run_without_progress :
    IsRun (fun _ => flight .mt (.sendData 0x37)) (fun _ => .timer) ∧ (flight .mt (.sendData 0x37)).twi.op ≠ .none ∧
    ¬BusProgress (fun _ => flight .mt (.sendData 0x37)) (fun _ => .timer) := by
  refine ⟨fun _ => rfl, by decide, fun h => ?_⟩
  obtain ⟨m, -, hm | ⟨ans, hm⟩⟩ := h 0
  · cases hm
  · cases hm

theorem witness_BcdRoundTrip : 0 < 80 ∧ 79 < 80 := by decide

end Sys2Proof.Tests
end

namespace Sys2Proof.Machine

/-! # What every step keeps

The effect of an access and of an engine step on each unit is said once; a predicate that the agents keep one by one is
kept by every step; legality, the invariant and the select lines are then assembled unit by unit. -/

/-! ## The reset state -/

/-- Settles O50, by evaluating the reset state. -/
theorem resetState : Obligations.ResetState := by
  unfold Obligations.ResetState
  exact ⟨by decide, rfl, rfl, rfl, rfl, rfl, fun _ => rfl⟩

theorem reset_legal : State.reset.Legal := by decide

/-- Settles O52: nothing is in flight, no select line is asserted and the history is empty. -/
theorem resetMeetsInvariant : Obligations.ResetMeetsInvariant :=
  { legal := reset_legal, status := by decide, select := .inl rfl, opFits := trivial, history := rfl }

/-! ## What an access does to the TWI unit -/

@[simp] theorem State.releaseBus_disp (s : State) : s.releaseBus.disp = s.disp := by
  rcases s.releaseBus_cases with ⟨-, h⟩ | ⟨-, h⟩ <;> rw [h]

@[simp] theorem State.releaseBus_tmr (s : State) : s.releaseBus.tmr = s.tmr := by
  rcases s.releaseBus_cases with ⟨-, h⟩ | ⟨-, h⟩ <;> rw [h]

theorem State.releaseBus_env_wf {s : State} (h : s.env.wf = true) : s.releaseBus.env.wf = true := by
  rcases s.releaseBus_cases with ⟨-, hr⟩ | ⟨-, hr⟩ <;> rw [hr]
  · exact h
  · exact BusEnv.release_wf h

/-- All an access that is no TWI_DISABLE can make of TWI unit `t`, as far as R19, R57, R62 and R83 look at it: leave it
but for EA, WC, EN, TWI_DATA and TWI_BR, refuse a command (R61), or issue an operation that fits the phase (R60). -/
inductive Twi.AccessEffect (t u : Twi) : Prop
  | kept (phase : u.phase = t.phase) (op : u.op = t.op) (int : u.int = t.int) (status : u.status = t.status)
      (en : u.en = t.en ∨ u.en = true)
  | refused (phase : u.phase = t.phase) (op : u.op = .none) (status : u.status = statusIllegal) (en : u.en = true)
  | issued (phase : u.phase = t.phase) (int : u.int = false) (status : u.status = statusNoInfo) (en : u.en = true)
      (fits : u.OpFitsPhase)

theorem Twi.AccessEffect.phase_eq {t u : Twi} (h : t.AccessEffect u) : u.phase = t.phase := by
  cases h <;> assumption

theorem Twi.unlessBusy_effect (t : Twi) {f : Twi → Twi} (h : t.op = .none → t.AccessEffect (f t)) :
    t.AccessEffect (t.unlessBusy f) := by
  by_cases ho : t.op = .none
  · rw [Twi.unlessBusy_free ho]; exact h ho
  · rw [Twi.unlessBusy_busy ho]; exact .kept rfl rfl rfl rfl (.inl rfl)

theorem Twi.configure_illegal_effect {t : Twi} (d : Byte) (ho : t.op = .none) :
    t.AccessEffect (t.configure d).illegal := .refused rfl ho rfl rfl

theorem Twi.configure_issue_effect (t : Twi) (d : Byte) {o : TwiOp} (hf : ((t.configure d).issue o).OpFitsPhase) :
    t.AccessEffect ((t.configure d).issue o) := .issued rfl rfl rfl rfl hf

/-- A command issued in every phase but MR, as START and STOP are, fits the phase it is issued in. -/
theorem Twi.issueUnlessReceiving_effect {t : Twi} (d : Byte) {o : TwiOp} (ho : t.op = .none)
    (hfit : t.phase ≠ .mr → ((t.configure d).issue o).OpFitsPhase) :
    t.AccessEffect ((t.configure d).issueUnlessReceiving o) := by
  rcases (t.configure d).issueUnlessReceiving_cases o with ⟨-, h⟩ | ⟨hp, h⟩ <;> rw [h]
  · exact t.configure_illegal_effect d ho
  · exact t.configure_issue_effect d (hfit hp)

theorem Twi.transfer_effect {t : Twi} (d : Byte) (k : Bool) (ho : t.op = .none) :
    t.AccessEffect ((t.configure d).transfer k) := by
  rcases (t.configure d).transfer_cases k with ⟨hp, h⟩ | ⟨hp, h⟩ | ⟨hp, h⟩ | ⟨-, h⟩ <;> rw [h]
  · exact t.configure_issue_effect d hp
  · exact t.configure_issue_effect d hp
  · exact t.configure_issue_effect d hp
  · exact t.configure_illegal_effect d ho

/-- A command that is held back while busy (R59) makes no bus event. -/
theorem command_effect {s t : State} {f : Twi → Twi}
    (h : (.next { s with twi := s.twi.unlessBusy f } : Host.Outcome State Fault Refusal) = .next t)
    (hf : s.twi.op = .none → s.twi.AccessEffect (f s.twi)) :
    s.twi.AccessEffect t.twi ∧ t.env = s.env ∧ t.history = s.history := by
  cases h
  exact ⟨s.twi.unlessBusy_effect hf, rfl, rfl⟩

/-- All an access can do to the TWI unit and the bus: a disable, which may release the bus (R68), or an AccessEffect
without a bus event. -/
theorem exec_twi_cases {i : Instr} {s t : State} (h : exec i s = .next t) :
    (∃ d, t = { s.releaseBus with twi := s.twi.disable d }) ∨
    (s.twi.AccessEffect t.twi ∧ t.env = s.env ∧ t.history = s.history) := by
  cases i
  case twiDisable d => cases h; exact .inl ⟨d, rfl⟩
  case twiConfig d => exact .inr (command_effect h fun _ => .kept rfl rfl rfl rfl (.inr rfl))
  case twiStart d => exact .inr (command_effect h fun ho => Twi.issueUnlessReceiving_effect d ho id)
  case twiStop d => exact .inr (command_effect h fun ho => Twi.issueUnlessReceiving_effect d ho id)
  case twiXfer d => exact .inr (command_effect h fun ho => Twi.transfer_effect d (ctrlEA d) ho)
  case twiCmdReserved d => exact .inr (command_effect h fun ho => Twi.configure_illegal_effect d ho)
  case twiDataWr d =>
    cases h
    refine .inr ⟨?_, rfl, rfl⟩
    dsimp only
    split <;> exact .kept rfl rfl rfl rfl (.inl rfl)
  all_goals cases h; exact .inr ⟨.kept rfl rfl rfl rfl (.inl rfl), rfl, rfl⟩

theorem exec_flightQuiet {i : Instr} {s t : State} (h : exec i s = .next t) (hs : s.twi.FlightQuiet) :
    t.twi.FlightQuiet := by
  rcases exec_twi_cases h with ⟨d, rfl⟩ | ⟨he, -, -⟩
  · exact fun _ => ⟨rfl, rfl⟩
  · cases he with
    | kept _ op int status _ => rw [Twi.FlightQuiet, op, int, status]; exact hs
    | refused _ op _ _ => exact fun ho => absurd op ho
    | issued _ int status _ _ => exact fun _ => ⟨int, status⟩

theorem exec_disabledIdle {i : Instr} {s t : State} (h : exec i s = .next t) (hs : s.twi.DisabledIdle) :
    t.twi.DisabledIdle := by
  rcases exec_twi_cases h with ⟨d, rfl⟩ | ⟨he, -, -⟩
  · exact fun _ => ⟨rfl, rfl⟩
  · intro hen
    cases he with
    | kept phase op _ _ en =>
      rw [phase, op]
      rcases en with e | e
      · exact hs (e ▸ hen)
      · simp [e] at hen
    | refused _ _ _ en => simp [en] at hen
    | issued _ _ _ en _ => simp [en] at hen

theorem exec_statusCode {i : Instr} {s t : State} (h : exec i s = .next t) (hs : StatusCode s.twi.status) :
    StatusCode t.twi.status := by
  rcases exec_twi_cases h with ⟨d, rfl⟩ | ⟨he, -, -⟩
  · exact (by decide : StatusCode statusNoInfo)
  · cases he with
    | kept _ _ _ status _ => rwa [status]
    | refused _ _ status _ => rw [status]; decide
    | issued _ _ status _ _ => rw [status]; decide

theorem exec_opFitsPhase {i : Instr} {s t : State} (h : exec i s = .next t) (hs : s.twi.OpFitsPhase) :
    t.twi.OpFitsPhase := by
  rcases exec_twi_cases h with ⟨d, rfl⟩ | ⟨he, -, -⟩
  · trivial
  · cases he with
    | kept phase op _ _ _ => unfold Twi.OpFitsPhase; rw [phase, op]; exact hs
    | refused _ op _ _ => unfold Twi.OpFitsPhase; rw [op]; trivial
    | issued _ _ _ _ fits => exact fits

/-- The bus grammar has a RELEASE in every phase but IDLE. -/
theorem Phase.after_release {p : Phase} (h : p ≠ .idle) : p.after .release = some .idle := by
  cases p
  case idle => exact absurd rfl h
  all_goals rfl

theorem exec_busPhase {i : Instr} {s t : State} (h : exec i s = .next t)
    (hs : busPhase s.history = some s.twi.phase) : busPhase t.history = some t.twi.phase := by
  rcases exec_twi_cases h with ⟨d, rfl⟩ | ⟨he, -, hh⟩
  · rcases s.releaseBus_cases with ⟨hp, hr⟩ | ⟨hp, hr⟩ <;> rw [hr]
    · rwa [hp] at hs
    · simp [busPhase_append, hs, Phase.after_release hp]
  · rw [hh, he.phase_eq, hs]

theorem exec_env_wf {i : Instr} {s t : State} (h : exec i s = .next t) (hs : s.env.wf = true) :
    t.env.wf = true := by
  rcases exec_twi_cases h with ⟨d, rfl⟩ | ⟨-, he, -⟩
  · exact State.releaseBus_env_wf hs
  · rwa [he]

/-! ## What an access does to the display and the timer -/

/-- All an access can do to the display unit: store a legal code (R90) or write DERR (R90, R92). -/
theorem exec_disp_cases {i : Instr} {s t : State} (h : exec i s = .next t) :
    t.disp = s.disp ∨ (∃ n d, LegalCode d ∧ t.disp = s.disp.setSlot n d) ∨
    ∃ b, t.disp = { s.disp with derr := b } := by
  cases i
  case twiDisable d => cases h; exact .inl s.releaseBus_disp
  case dispDigitWr n d =>
    cases h
    by_cases hd : LegalCode d
    · exact .inr (.inl ⟨n, d, hd, if_pos hd⟩)
    · exact .inr (.inr ⟨true, if_neg hd⟩)
  case dispStatusWr d => cases h; exact .inr (.inr ⟨_, rfl⟩)
  all_goals cases h; exact .inl rfl

theorem exec_slotsLegal {i : Instr} {s t : State} (h : exec i s = .next t) (hs : s.disp.SlotsLegal) :
    t.disp.SlotsLegal := by
  rcases exec_disp_cases h with e | ⟨n, d, hd, e⟩ | ⟨b, e⟩ <;> rw [e]
  · exact hs
  · exact Display.setSlot_slotsLegal hs hd
  · exact hs

/-- No access moves the select lines (R96). -/
theorem exec_sel {i : Instr} {s t : State} (h : exec i s = .next t) : t.disp.sel = s.disp.sel := by
  rcases exec_disp_cases h with e | ⟨n, d, -, e⟩ | ⟨b, e⟩ <;> rw [e]
  rfl

/-- All an access can do to the timer's CS and LOCK: leave both, or set LOCK as the new CS asks (R102). -/
theorem exec_lock_cases {i : Instr} {s t : State} (h : exec i s = .next t) :
    (t.tmr.cs = s.tmr.cs ∧ t.tmr.lock = s.tmr.lock) ∨ t.tmr.lock = (t.tmr.cs != 0) := by
  cases i
  case twiDisable d => cases h; simp
  case tmrCtrlWr d =>
    cases h
    by_cases hl : s.tmr.lock = true <;> simp [hl]
  all_goals cases h; exact .inl ⟨rfl, rfl⟩

theorem exec_lockIffSelected {i : Instr} {s t : State} (h : exec i s = .next t) (hs : s.tmr.LockIffSelected) :
    t.tmr.LockIffSelected := by
  rcases exec_lock_cases h with ⟨hc, hl⟩ | hl
  · rw [Timer.LockIffSelected, hc, hl]; exact hs
  · simp [Timer.LockIffSelected, hl]

/-! ## What an engine step does -/

/-- A receive that completes took a byte from the environment (R81). -/
theorem completeRecv_cases {k : Bool} {ans : BusAnswer} {s t : State} (h : completeRecv k ans s = .next t) :
    ∃ v e, s.env.read k ans = some (v, e) ∧
      t = { s with
        env := e
        twi := { s.twi with op := .none, data := v, phase := recvPhase k, status := recvStatus k, int := true }
        history := s.history ++ [.read v k] } := by
  unfold completeRecv at h
  cases hr : s.env.read k ans with
  | none => rw [hr] at h; cases h
  | some q => rw [hr] at h; cases h; exact ⟨q.1, q.2, rfl, rfl⟩

theorem startStatus_code (first : Bool) : StatusCode (startStatus first) := by cases first <;> decide
theorem addrStatus_code (isRead ack : Bool) : StatusCode (addrStatus isRead ack) := by
  cases isRead <;> cases ack <;> decide
theorem dataStatus_code (ack : Bool) : StatusCode (dataStatus ack) := by cases ack <;> decide
theorem recvStatus_code (k : Bool) : StatusCode (recvStatus k) := by cases k <;> decide

/-- All an engine step can do to the block beside its bus event and TWI.phase: nothing without an operation, and
otherwise it completes the operation with a code of R57, and leaves EN and the other units alone (R76). -/
theorem engineStep_cases {ans : BusAnswer} {s t : State} (h : engineStep ans s = .next t) :
    (s.twi.op = .none ∧ t = s) ∨
    (s.twi.op ≠ .none ∧ t.twi.op = .none ∧ t.twi.en = s.twi.en ∧ StatusCode t.twi.status ∧
      t.disp = s.disp ∧ t.tmr = s.tmr) := by
  unfold engineStep at h
  cases ho : s.twi.op <;> rw [ho] at h
  case none => cases h; exact .inl ⟨rfl, rfl⟩
  case start => cases h; exact .inr ⟨nofun, rfl, rfl, startStatus_code _, rfl, rfl⟩
  case stop =>
    cases h
    refine .inr ⟨nofun, ?_⟩
    unfold completeStop
    split <;> exact ⟨rfl, rfl, (by decide : StatusCode statusNoInfo), rfl, rfl⟩
  case sendAddr b => cases h; exact .inr ⟨nofun, rfl, rfl, addrStatus_code _ _, rfl, rfl⟩
  case sendData b => cases h; exact .inr ⟨nofun, rfl, rfl, dataStatus_code _, rfl, rfl⟩
  case recv k =>
    obtain ⟨v, e, -, rfl⟩ := completeRecv_cases h
    exact .inr ⟨nofun, rfl, rfl, recvStatus_code k, rfl, rfl⟩

/-- The bus grammar has the START or repeated START that a completed START puts on the bus (R77). -/
theorem Phase.after_start {p : Phase} (h : p ≠ .mr) :
    p.after (if (p == .idle) = true then .start else .rstart) = some .started := by
  cases p
  case mr => exact absurd rfl h
  all_goals rfl

theorem Phase.after_stop {p : Phase} (hi : p ≠ .idle) (hm : p ≠ .mr) : p.after .stop = some .idle := by
  cases p
  case idle => exact absurd rfl hi
  case mr => exact absurd rfl hm
  all_goals rfl

theorem Phase.after_addr (b : Byte) (a : Bool) :
    Phase.started.after (.addr b a) = some (addrPhase (addrIsRead b) a) := by
  cases a <;> cases hr : addrIsRead b <;> simp [Phase.after, addrPhase, hr]

/-- A written byte leaves the phase as it was (R80). -/
theorem Phase.after_write {p : Phase} (h : p = .mt) (b : Byte) (a : Bool) : p.after (.write b a) = some p := by
  rw [h]; rfl

theorem Phase.after_read (v : Byte) (k : Bool) : Phase.mr.after (.read v k) = some (recvPhase k) := by
  cases k <;> rfl

/-- All an engine step can do to the bus history, for an operation that fits its phase: nothing, or one event that the
grammar has in that phase and that leads to the new one. -/
theorem engineStep_history {ans : BusAnswer} {s t : State} (hf : s.twi.OpFitsPhase) (h : engineStep ans s = .next t) :
    (t.history = s.history ∧ t.twi.phase = s.twi.phase) ∨
    ∃ e, t.history = s.history ++ [e] ∧ s.twi.phase.after e = some t.twi.phase := by
  unfold engineStep at h
  unfold Twi.OpFitsPhase at hf
  cases ho : s.twi.op <;> rw [ho] at h hf
  case none => cases h; exact .inl ⟨rfl, rfl⟩
  case start => cases h; exact .inr ⟨_, rfl, Phase.after_start hf⟩
  case stop =>
    cases h
    unfold completeStop
    split
    next hi => exact .inl ⟨rfl, hi.symm⟩
    next hi => exact .inr ⟨.stop, rfl, Phase.after_stop hi hf⟩
  case sendAddr b =>
    cases h
    exact .inr ⟨_, rfl, hf ▸ Phase.after_addr b _⟩
  case sendData b =>
    cases h
    exact .inr ⟨_, rfl, Phase.after_write hf b _⟩
  case recv k =>
    obtain ⟨v, e, -, rfl⟩ := completeRecv_cases h
    have hp : s.twi.phase = .mr := hf
    exact .inr ⟨_, rfl, hp ▸ Phase.after_read v k⟩

theorem engineStep_env_wf {ans : BusAnswer} {s t : State} (h : engineStep ans s = .next t) (hs : s.env.wf = true) :
    t.env.wf = true := by
  unfold engineStep at h
  cases ho : s.twi.op <;> rw [ho] at h
  case none => cases h; exact hs
  case start => cases h; exact BusEnv.start_wf (s.twi.phase == .idle) hs
  case stop =>
    cases h
    unfold completeStop
    split
    · exact hs
    · exact BusEnv.stop_wf hs
  case sendAddr b => cases h; exact BusEnv.addr_wf b ans hs
  case sendData b => cases h; exact BusEnv.write_wf b ans hs
  case recv k =>
    obtain ⟨v, e, hr, rfl⟩ := completeRecv_cases h
    obtain ⟨v', e', hr', hwf⟩ := BusEnv.read_wf k ans hs
    cases hr.symm.trans hr'
    exact hwf

/-! ## What a count and a service leave alone -/

theorem timerStep_eq (s : State) : timerStep s = { s with tmr := (timerStep s).tmr } := by
  unfold timerStep; split <;> rfl

theorem timerStep_lockIffSelected {s : State} (h : s.tmr.LockIffSelected) : (timerStep s).tmr.LockIffSelected := by
  unfold timerStep
  split
  · simpa [Timer.LockIffSelected] using h
  · exact h

/-- A service step writes no unit but the display's lines and cursor and the timer's OVF. -/
theorem takeTick_frame {s t : State} (h : takeTick s = .next t) :
    t.twi = s.twi ∧ t.env = s.env ∧ t.history = s.history ∧ t.disp.digit = s.disp.digit ∧
    t.tmr.cs = s.tmr.cs ∧ t.tmr.lock = s.tmr.lock := by
  rcases takeTick_cases h with ⟨-, rfl⟩ | ⟨-, p, -, rfl⟩ <;> exact ⟨rfl, rfl, rfl, rfl, rfl, rfl⟩

theorem takeTick_sel {s t : State} (h : takeTick s = .next t) :
    t.disp.sel = s.disp.sel ∨ SelectOneHot t.disp.sel := by
  rcases takeTick_cases h with ⟨-, rfl⟩ | ⟨-, p, -, rfl⟩
  · exact .inl rfl
  · exact .inr (selectLine_oneHot _)

/-! ## What every agent keeps, every step keeps -/

/-- Every agent of R4 keeps P, and P looks at neither the agenda nor the host's script. -/
structure KeptByAgents (P : State → Prop) : Prop where
  agenda : ∀ (s : State) (a : List Move), P s → P { s with agenda := a }
  host : ∀ (s : State) (c : HostCpu), P s → P { s with host := c }
  access : ∀ (i : Instr) (s t : State), exec i s = .next t → P s → P t
  engine : ∀ (ans : BusAnswer) (s t : State), engineStep ans s = .next t → P s → P t
  timer : ∀ s : State, P s → P (timerStep s)
  display : ∀ s t : State, takeTick s = .next t → P s → P t
  clock : ∀ (x y z : Byte) (s : State), P s → P (rtcClockStep x y z s)

theorem KeptByAgents.runMove {P : State → Prop} (hP : KeptByAgents P) {m : Move} {s t : State}
    (h : runMove m s = .next t) (hs : P s) : P t := by
  rcases runMove_cases h with ⟨u, hu, ht⟩ | ⟨ans, -, h⟩ | ⟨-, rfl⟩ | ⟨-, h⟩ | ⟨x, y, z, -, rfl⟩
  · rw [ht]
    refine hP.host u _ ?_
    rcases hu with rfl | ⟨i, hi⟩
    · exact hs
    · exact hP.access i s u hi hs
  · exact hP.engine ans s t h hs
  · exact hP.timer s hs
  · exact hP.display s t h hs
  · exact hP.clock x y z s hs

theorem KeptByAgents.step {P : State → Prop} (hP : KeptByAgents P) {s t : State} (h : step s = .next t)
    (hs : P s) : P t := by
  obtain ⟨-, ⟨-, rfl⟩ | ⟨m, rest, -, hm⟩⟩ := step_cases h
  · exact hs
  · exact hP.runMove hm (hP.agenda s rest hs)

/-! ## Legality (R19, R21, R29, R115) -/

theorem exec_legal {i : Instr} {s t : State} (h : exec i s = .next t) (hs : s.Legal) : t.Legal := by
  obtain ⟨hquiet, hidle, hslots, hlock, hwf⟩ := hs
  exact ⟨exec_flightQuiet h hquiet, exec_disabledIdle h hidle, exec_slotsLegal h hslots,
    exec_lockIffSelected h hlock, exec_env_wf h hwf⟩

/-- With EN = 0 nothing is in flight (R19 (b)), so an engine step that completes an operation leaves EN = 1. -/
theorem engineStep_legal {ans : BusAnswer} {s t : State} (h : engineStep ans s = .next t) (hs : s.Legal) :
    t.Legal := by
  rcases engineStep_cases h with ⟨-, rfl⟩ | ⟨hop, hdone, hen, -, hd, ht⟩
  · exact hs
  · obtain ⟨-, hidle, hslots, hlock, hwf⟩ := hs
    exact ⟨fun ho => absurd hdone ho, fun e => absurd (hidle (hen ▸ e)).2 hop, hd ▸ hslots, ht ▸ hlock,
      engineStep_env_wf h hwf⟩

theorem timerStep_legal {s : State} (hs : s.Legal) : (timerStep s).Legal := by
  obtain ⟨hquiet, hidle, hslots, hlock, hwf⟩ := hs
  rw [timerStep_eq]
  exact ⟨hquiet, hidle, hslots, timerStep_lockIffSelected hlock, hwf⟩

theorem takeTick_legal {s t : State} (h : takeTick s = .next t) (hs : s.Legal) : t.Legal := by
  obtain ⟨htwi, henv, -, hdigit, hcs, hlk⟩ := takeTick_frame h
  rw [State.Legal, Display.SlotsLegal, Timer.LockIffSelected, htwi, henv, hdigit, hcs, hlk]
  exact hs

theorem rtcClockStep_legal (x y z : Byte) {s : State} (hs : s.Legal) : (rtcClockStep x y z s).Legal := by
  obtain ⟨hquiet, hidle, hslots, hlock, hwf⟩ := hs
  exact ⟨hquiet, hidle, hslots, hlock, BusEnv.clock_wf x y z hwf⟩

theorem legal_keptByAgents : KeptByAgents State.Legal where
  agenda _ _ h := h
  host _ _ h := h
  access _ _ _ := exec_legal
  engine _ _ _ := engineStep_legal
  timer _ := timerStep_legal
  display _ _ := takeTick_legal
  clock x y z _ := rtcClockStep_legal x y z

/-- Settles O51: a step is taken in a legal state only, and every agent keeps legality. -/
theorem stepKeepsLegality : Obligations.StepKeepsLegality := by
  intro s t h
  exact legal_keptByAgents.step h (step_cases h).1

/-! ## The select lines (R25) -/

/-- With the lines at `l` before, they are still so or exactly one is asserted. -/
theorem sel_keptByAgents (l : BitVec 4) :
    KeptByAgents fun u => u.disp.sel = l ∨ SelectOneHot u.disp.sel where
  agenda _ _ h := h
  host _ _ h := h
  access _ _ _ hx h := by rwa [exec_sel hx]
  engine _ _ _ hx h := by
    rcases engineStep_cases hx with ⟨-, rfl⟩ | ⟨-, -, -, -, hd, -⟩
    · exact h
    · rwa [hd]
  timer s h := by rwa [timerStep_eq]
  display _ _ hx h := by
    rcases takeTick_sel hx with e | e
    · rwa [e]
    · exact .inr e
  clock _ _ _ _ h := h

/-- A step leaves the select lines as they were or with exactly one asserted. -/
theorem step_sel {s t : State} (h : step s = .next t) : t.disp.sel = s.disp.sel ∨ SelectOneHot t.disp.sel :=
  (sel_keptByAgents s.disp.sel).step h (.inl rfl)

/-- A service step with a pending tick asserts exactly one line. -/
theorem step_display_sel {s t : State} {rest : List Move} (h : step s = .next t) (ha : s.agenda = .display :: rest)
    (hp : s.tmr.TickPending) : SelectOneHot t.disp.sel := by
  rw [step_of_legal (step_cases h).1 ha] at h
  rcases takeTick_cases h with ⟨hn, -⟩ | ⟨-, p, -, rfl⟩
  · exact absurd hp hn
  · exact selectLine_oneHot _

/-- Settles O54: only a service step moves the lines, to the cursor's. -/
theorem selectLinesStayOneHot : Obligations.SelectLinesStayOneHot := by
  intro s t h
  refine ⟨fun hs => ?_, fun hne => ?_, fun rest ha hovf htie => step_display_sel h ha ⟨hovf, htie⟩⟩
  · rcases step_sel h with e | e
    · rwa [e]
    · exact e
  · exact (step_sel h).resolve_left hne

/-! ## The whole invariant -/

theorem statusCode_keptByAgents : KeptByAgents fun s => StatusCode s.twi.status where
  agenda _ _ h := h
  host _ _ h := h
  access _ _ _ := exec_statusCode
  engine _ _ _ hx h := by
    rcases engineStep_cases hx with ⟨-, rfl⟩ | ⟨-, -, -, hc, -, -⟩
    · exact h
    · exact hc
  timer s h := by rwa [timerStep_eq]
  display _ _ hx h := by
    obtain ⟨htwi, -⟩ := takeTick_frame hx
    rwa [htwi]
  clock _ _ _ _ h := h

/-- The phase can be read off the bus history, and fits the operation in flight (R62, R83). -/
def State.BusAgrees (s : State) : Prop := s.twi.OpFitsPhase ∧ busPhase s.history = some s.twi.phase

theorem engineStep_busAgrees {ans : BusAnswer} {s t : State} (h : engineStep ans s = .next t) (hs : s.BusAgrees) :
    t.BusAgrees := by
  obtain ⟨hf, hb⟩ := hs
  constructor
  · rcases engineStep_cases h with ⟨-, rfl⟩ | ⟨-, hdone, -⟩
    · exact hf
    · unfold Twi.OpFitsPhase; rw [hdone]; trivial
  · rcases engineStep_history hf h with ⟨hh, hp⟩ | ⟨e, hh, hp⟩
    · rw [hh, hp, hb]
    · rw [hh, busPhase_append, hb]; exact hp

theorem busAgrees_keptByAgents : KeptByAgents State.BusAgrees where
  agenda _ _ h := h
  host _ _ h := h
  access _ _ _ hx h := ⟨exec_opFitsPhase hx h.1, exec_busPhase hx h.2⟩
  engine _ _ _ := engineStep_busAgrees
  timer s h := by rw [timerStep_eq]; exact h
  display _ _ hx h := by
    obtain ⟨htwi, -, hhist, -⟩ := takeTick_frame hx
    rwa [State.BusAgrees, htwi, hhist]
  clock _ _ _ _ h := h

/-- Settles O53: each part of the invariant is kept, the history's together with the operation's fit to its phase. -/
theorem stepKeepsInvariant : Obligations.StepKeepsInvariant := by
  intro s t hs h
  obtain ⟨hf, hb⟩ := busAgrees_keptByAgents.step h ⟨hs.opFits, hs.history⟩
  refine ⟨stepKeepsLegality s t h, statusCode_keptByAgents.step h hs.status, ?_, hf, hb⟩
  rcases step_sel h with e | e
  · rw [e]; exact hs.select
  · exact .inr e

end Sys2Proof.Machine

namespace Sys2Proof

/-! # Host accesses (spec/20_memory.md)

How words and host addresses reach the registers, what a read returns, and what a write changes: each is said once for
every access, and the statements about the register window are assembled from it. -/

/-! ## Words that spell an access (R47, R48) -/

theorem fieldW_and (w m : Word) : fieldW (w &&& m) = (fieldW w && fieldW m) := BitVec.getLsbD_and

theorem fieldZ_and (w m : Word) : fieldZ (w &&& m) = fieldZ w &&& fieldZ m := BitVec.extractLsb'_and

theorem fieldOff_and (w m : Word) : fieldOff (w &&& m) = fieldOff w &&& fieldOff m := BitVec.extractLsb'_and

theorem fieldData_and (w m : Word) : fieldData (w &&& m) = fieldData w &&& fieldData m := BitVec.extractLsb'_and

/-! A word that meets a mask holds the pattern's value in every field the mask covers. -/

theorem fieldW_of_mask {w p m : Word} (h : w &&& m = p) (hm : fieldW m = true) : fieldW w = fieldW p := by
  rw [← h, fieldW_and, hm, Bool.and_true]

theorem fieldZ_of_mask {w p m : Word} (h : w &&& m = p) (hm : fieldZ m = BitVec.allOnes 3) : fieldZ w = fieldZ p := by
  rw [← h, fieldZ_and, hm, BitVec.and_allOnes]

theorem fieldData_of_mask {w p m : Word} (h : w &&& m = p) (hm : fieldData m = BitVec.allOnes 8) :
    fieldData w = fieldData p := by
  rw [← h, fieldData_and, hm, BitVec.and_allOnes]

/-- A word whose bits 15:12 are 1000 is a write access. -/
theorem decode_of_write {w : Word} (h : w &&& 0xF000 = 0x8000) :
    decode w = .ok (decodeWrite (fieldOff w) (fieldData w)) := by
  have hw : fieldW w = true := fieldW_of_mask h rfl
  have hz : fieldZ w = 0 := fieldZ_of_mask h rfl
  simp [decode, hw, hz]

/-- A word that is 0 but for its offset is a read access. -/
theorem decode_of_read {w : Word} (h : w &&& 0xF0FF = 0) : decode w = .ok (decodeRead (fieldOff w)) := by
  have hw : fieldW w = false := fieldW_of_mask h rfl
  have hz : fieldZ w = 0 := fieldZ_of_mask h rfl
  have hd : fieldData w = 0 := fieldData_of_mask h rfl
  simp [decode, hw, hz, hd]

/-- A word that meets a mask meets every part of it. -/
theorem and_of_and_mask {n : Nat} {w p m : BitVec n} (k : BitVec n) (h : w &&& m = p) : w &&& (m &&& k) = p &&& k := by
  rw [← h, BitVec.and_assoc]

theorem Instr.offset_of_writeWord {i : Instr} {off : Offset} {d : Byte} (h : encode i = writeWord off d) :
    i.offset = off := by
  rw [Instr.offset, h, fieldOff_writeWord]

theorem Instr.offset_of_readWord {i : Instr} {off : Offset} (h : encode i = readWord off) : i.offset = off := by
  rw [Instr.offset, h, fieldOff_readWord]

/-! ## The reserved offsets 0xE and 0xF (R39) -/

theorem Offset.reserved_cases {off : Offset} (h : off &&& 0xE = 0xE) : off = 0xE ∨ off = 0xF := by
  revert off; decide

theorem decodeWrite_reserved {off : Offset} (h : off &&& 0xE = 0xE) (d : Byte) :
    decodeWrite off d = .rsvdWr (off.extractLsb' 0 1) d := by
  rcases Offset.reserved_cases h with rfl | rfl <;> rfl

theorem decodeRead_reserved {off : Offset} (h : off &&& 0xE = 0xE) :
    decodeRead off = .rsvdRd (off.extractLsb' 0 1) := by
  rcases Offset.reserved_cases h with rfl | rfl <;> rfl

/-- The lowest bit of the OFF field, which names one of the two reserved registers, is bit 8 of the word. -/
theorem fieldOff_lowBit (w : Word) : (fieldOff w).extractLsb' 0 1 = w.extractLsb' 8 1 := by
  ext i hi
  simp [fieldOff, show i < 4 by omega]

theorem fieldOff_reserved {w p m : Word} (h : w &&& m = p) (hm : fieldOff m = 0xE) (hp : fieldOff p = 0xE) :
    fieldOff w &&& 0xE = 0xE := by
  rw [← hm, ← fieldOff_and, h, hp, hm]

theorem rsvdWr_spelled : SpelledBy 0x8E00 0xFE00 (fun w => .rsvdWr (w.extractLsb' 8 1) (fieldData w)) := by
  intro w h
  rw [decode_of_write (and_of_and_mask 0xF000 h), decodeWrite_reserved (fieldOff_reserved h rfl rfl), fieldOff_lowBit]

theorem rsvdRd_spelled : SpelledBy 0x0E00 0xFEFF (fun w => .rsvdRd (w.extractLsb' 8 1)) := by
  intro w h
  rw [decode_of_read (and_of_and_mask 0xF0FF h), decodeRead_reserved (fieldOff_reserved h rfl rfl), fieldOff_lowBit]

end Sys2Proof

namespace Sys2Proof.Machine

/-! ## How an access reaches the block (R32 to R34, R47) -/

theorem hostWord_of_decode {w : Word} {i : Instr} (h : decode w = .ok i) (s : State) : hostWord w s = exec i s := by
  rw [hostWord, h]

theorem hostWord_writeWord (off : Offset) (d : Byte) (s : State) :
    hostWord (writeWord off d) s = exec (decodeWrite off d) s := hostWord_of_decode (decode_writeWord off d) s

theorem decodeTableWord_some {n w : Nat} {i : Instr} (h : decodeTableWord n w = some i) :
    decode (BitVec.ofNat 16 (w % 2 ^ n)) = .ok i := by
  unfold decodeTableWord at h
  split at h
  next j hj => cases h; exact hj
  next => cases h

/-- A step whose next move is a host word performs the access that word spells. -/
theorem step_host_word {s : State} {w : Word} {i : Instr} {rest : List Move} (hl : s.Legal)
    (ha : s.agenda = .host (.word w) :: rest) (hd : decode w = .ok i) : step s = exec i { s with agenda := rest } := by
  rw [step_of_legal hl ha]
  exact hostWord_of_decode hd _

/-- Settles O1: the placed word is the next move, and taking it away gives back the state it was placed in. -/
theorem stepRunsDecodedAccess : Obligations.StepRunsDecodedAccess :=
  ⟨fun _ _ _ _ hl ha hd => step_host_word hl ha hd, fun _ _ _ hl hd => step_host_word hl rfl (decodeTableWord_some hd)⟩

theorem touchesWindow_iff (p : Params) (addr size : Nat) :
    TouchesWindow p addr size ↔ 0 < size ∧ p.base < addr + size ∧ addr < p.base + 16 := by
  unfold TouchesWindow; omega

theorem hostAt_offset (off : Offset) (word : Offset → Word) (s : State) :
    hostAt (s.params.base + off.toNat) 1 word s = hostWord (word off) s := by
  have htouch : TouchesWindow s.params (s.params.base + off.toNat) 1 := by
    rw [touchesWindow_iff]; omega
  rw [hostAt, if_pos htouch, if_pos rfl, Nat.add_sub_cancel_left, BitVec.ofNat_toNat, BitVec.setWidth_eq]

theorem hostAt_outside {addr size : Nat} {s : State}
    (h : addr + size ≤ s.params.base ∨ s.params.base + 16 ≤ addr) (word : Offset → Word) :
    hostAt addr size word s = .next s := by
  refine if_neg ?_
  rw [touchesWindow_iff]; omega

theorem hostAt_wide {addr size : Nat} {s : State} (hsize : 2 ≤ size) (hlow : s.params.base < addr + size)
    (hhigh : addr < s.params.base + 16) (word : Offset → Word) :
    hostAt addr size word s = .refused .wideAccess := by
  have htouch : TouchesWindow s.params addr size := by
    rw [touchesWindow_iff]; omega
  rw [hostAt, if_pos htouch, if_neg (by omega)]

/-- Settles O7: a load and a store alike go through hostAt, which only asks where their bytes lie. -/
theorem hostAddressesReachRegisters : Obligations.HostAddressesReachRegisters := by
  intro s
  simp only [hostRequest]
  refine ⟨fun off v => ⟨?_, ?_⟩, fun addr size v h => ⟨?_, ?_⟩, fun addr size v hsize hlow hhigh => ⟨?_, ?_⟩⟩
  · exact hostAt_offset off readWord s
  · exact hostAt_offset off (fun o => writeWord o v) s
  · exact hostAt_outside h readWord
  · exact hostAt_outside h _
  · exact hostAt_wide hsize hlow hhigh readWord
  · exact hostAt_wide hsize hlow hhigh _

/-! ## The register of an offset (R13) -/

/-- A case for each register of the window, the digits and the reserved offsets by their number. -/
theorem Offset.registerCases {P : Offset → Prop} (twiCtrl : P 0x0) (twiStatus : P 0x1) (twiData : P 0x2)
    (twiBr : P 0x3) (digit : ∀ n, P (regDigit n)) (dispStatus : P 0x8) (dispSel : P 0x9) (dispSeg : P 0xA)
    (tmrCtrl : P 0xB) (tmrCount : P 0xC) (tmrFlags : P 0xD) (rsvd : ∀ o : BitVec 1, P (0b111#3 ++ o)) (off : Offset) :
    P off := by
  obtain ⟨k, hk⟩ := off
  interval_cases k
  exacts [twiCtrl, twiStatus, twiData, twiBr, digit 0, digit 1, digit 2, digit 3, dispStatus, dispSel, dispSeg, tmrCtrl,
    tmrCount, tmrFlags, rsvd 0, rsvd 1]

@[simp] theorem State.readReg_regDigit (s : State) (n : Slot) : s.readReg (regDigit n) = s.disp.slot n := by
  obtain rfl | rfl | rfl | rfl : n = 0 ∨ n = 1 ∨ n = 2 ∨ n = 3 := by revert n; decide
  all_goals rfl

@[simp] theorem State.readReg_rsvd (s : State) (o : BitVec 1) : s.readReg (0b111#3 ++ o) = 0x00 := by
  obtain rfl | rfl : o = 0 ∨ o = 1 := by revert o; decide
  all_goals rfl

/-! ## Reads (R37) -/

/-- Every read answers with its register's read value. -/
theorem exec_read {i : Instr} (hi : i.isRead = true) (s : State) :
    exec i s = .next (s.respond (s.readReg i.offset)) := by
  cases i <;> cases hi
  case dispDigitRd n => rw [Instr.offset_of_readWord (off := regDigit n) rfl, s.readReg_regDigit]; rfl
  case rsvdRd o => rw [Instr.offset_of_readWord (off := 0b111#3 ++ o) rfl, s.readReg_rsvd]; rfl
  all_goals rfl

/-- Settles O44: a read only adds to the record of reads, which no register shows. -/
theorem readsChangeNothing : Obligations.ReadsChangeNothing := by
  intro i s hi
  refine ⟨_, exec_read hi s, rfl, ?_⟩
  rw [exec_read hi, State.respond_readReg]
  rfl

/-! ## Reserved bits (R39) -/

theorem Twi.ctrlValue_reserved (t : Twi) : t.ctrlValue &&& 0x03 = 0 := by
  unfold Twi.ctrlValue
  generalize t.int = a, t.ea = b, (t.op == .start) = c, (t.op == .stop) = d, t.wc = e, t.en = f
  revert a b c d e f
  decide

theorem Display.statusValue_reserved (p : Display) : p.statusValue &&& 0x7C = 0 := by
  unfold Display.statusValue
  generalize p.derr = a, p.cursor = c
  revert a c
  decide

theorem Display.selValue_reserved (p : Display) : p.selValue &&& 0xF0 = 0 := by
  unfold Display.selValue
  generalize p.sel = l
  revert l
  decide

theorem Timer.ctrlValue_reserved (t : Timer) : t.ctrlValue &&& 0x38 = 0 := by
  unfold Timer.ctrlValue
  generalize t.tie = a, t.lock = b, t.cs = c
  revert a b c
  decide

theorem Timer.flagsValue_reserved (t : Timer) : t.flagsValue &&& 0xFC = 0 := by
  unfold Timer.flagsValue
  generalize t.ovr = a, t.ovf = b
  revert a b
  decide

/-- Two bytes that agree under a mask agree in each of its bits. -/
theorem getLsbD_eq_of_mask {d e m : Byte} (h : d &&& m = e &&& m) {k : Nat} (hk : m.getLsbD k = true) :
    d.getLsbD k = e.getLsbD k := by
  have := congrArg (fun v => v.getLsbD k) h
  simpa [hk] using this

/-- A TWI_CTRL write uses bits 7:2 of its byte (R50): EN, INT, STA and STO to select the command, EA as its operand. -/
theorem exec_decodeCtrlWrite_congr {d e : Byte} (h : d &&& 0xFC = e &&& 0xFC) (s : State) :
    exec (decodeCtrlWrite d) s = exec (decodeCtrlWrite e) s := by
  have hbit : ∀ {k : Nat}, (0xFC#8).getLsbD k = true → d.getLsbD k = e.getLsbD k := getLsbD_eq_of_mask h
  have hea : ctrlEA d = ctrlEA e := hbit (k := 6) rfl
  have hcfg : ∀ t : Twi, t.configure d = t.configure e := fun t => by rw [Twi.configure, hea, Twi.configure]
  have hdis : ∀ t : Twi, t.disable d = t.disable e := fun t => by rw [Twi.disable, hea, Twi.disable]
  unfold decodeCtrlWrite
  rw [hbit (k := 2) rfl, hbit (k := 7) rfl, hbit (k := 5) rfl, hbit (k := 4) rfl]
  split
  · simp only [exec, execTwiDisable, hdis]
  split
  · simp only [exec, execTwiConfig, hcfg]
  split
  · simp only [exec, execTwiStart, hcfg]
  · simp only [exec, execTwiStop, hcfg]
  · simp only [exec, execTwiXfer, hcfg, hea]
  · simp only [exec, execTwiCmdReserved, hcfg]

theorem tmrCS_and (d m : Byte) : tmrCS (d &&& m) = tmrCS d &&& tmrCS m := BitVec.extractLsb'_and

theorem tmrCS_congr {d e : Byte} (h : d &&& 0xC7 = e &&& 0xC7) : tmrCS d = tmrCS e := by
  have := congrArg tmrCS h
  have covered : tmrCS 0xC7 = BitVec.allOnes 3 := rfl
  rwa [tmrCS_and, tmrCS_and, covered, BitVec.and_allOnes, BitVec.and_allOnes] at this

/-- Settles O16: the reserved offsets decode to RSVD accesses, which do nothing, and every other register uses only the
unreserved bits of a written byte. -/
theorem reservedSpaceReadsZero : Obligations.ReservedSpaceReadsZero := by
  refine ⟨rsvdWr_spelled, rsvdRd_spelled, fun o d s => ⟨rfl, rfl, s.twi.ctrlValue_reserved, s.disp.statusValue_reserved,
    s.disp.selValue_reserved, s.tmr.ctrlValue_reserved, s.tmr.flagsValue_reserved, fun e => ?_⟩⟩
  simp only [hostWord_writeWord]
  refine ⟨fun h => exec_decodeCtrlWrite_congr h s, fun h => ?_, fun h => rfl, fun h => ?_, fun h => ?_⟩
  · change execDispStatusWr d s = execDispStatusWr e s
    simp only [execDispStatusWr, getLsbD_eq_of_mask h (k := 7) rfl]
  · change execTmrCtrlWr d s = execTmrCtrlWr e s
    simp only [execTmrCtrlWr, tmrTIE, getLsbD_eq_of_mask h (k := 7) rfl, tmrCS_congr h]
  · change execTmrFlagsWr d s = execTmrFlagsWr e s
    simp only [execTmrFlagsWr, getLsbD_eq_of_mask h (k := 0) rfl, getLsbD_eq_of_mask h (k := 1) rfl]

/-! ## Every move of the block completes (R133) -/

theorem exec_next (i : Instr) (s : State) : ∃ t, exec i s = .next t := by
  cases i <;> exact ⟨_, rfl⟩

/-- The engine never stops beside a slave that R115 describes: a receive finds its byte. -/
theorem engineStep_next (ans : BusAnswer) {s : State} (h : s.env.wf = true) : ∃ t, engineStep ans s = .next t := by
  unfold engineStep
  cases s.twi.op
  case recv k =>
    obtain ⟨v, e, hr, -⟩ := BusEnv.read_wf k ans h
    simp only [completeRecv, hr]
    exact ⟨_, rfl⟩
  all_goals exact ⟨_, rfl⟩

theorem runMove_internal_next {m : Move} {s : State} (hm : m.isInternal = true) (hs : s.Legal) :
    ∃ t, runMove m s = .next t := by
  obtain ⟨-, -, hslots, -, hwf⟩ := hs
  cases m with
  | host r => cases hm
  | script p => cases hm
  | twiEngine ans => exact engineStep_next ans hwf
  | timer => exact ⟨_, rfl⟩
  | display => exact takeTick_next hslots
  | rtcClock x y z => exact ⟨_, rfl⟩

/-- Settles O46: legality gives the display service a code to render and the engine a register to read. -/
theorem everyAccessCompletes : Obligations.EveryAccessCompletes := by
  refine ⟨exec_next, fun s m rest hl ha hm => ?_⟩
  rw [step_of_legal hl ha]
  exact runMove_internal_next hm hl

/-! ## The units are independent (R42) -/

theorem timerStep_frame (s : State) :
    (timerStep s).twi = s.twi ∧ (timerStep s).env = s.env ∧ (timerStep s).history = s.history := by
  rw [timerStep_eq]
  exact ⟨rfl, rfl, rfl⟩

/-- A count neither reads nor writes the TWI unit and the environment. -/
theorem timerStep_twi_env (s : State) (x : Twi) (e : BusEnv) :
    timerStep { s with twi := x, env := e } = { timerStep s with twi := x, env := e } := by
  unfold timerStep; split <;> rfl

theorem takeTick_twi_env {s t : State} (x : Twi) (e : BusEnv) (h : takeTick s = .next t) :
    takeTick { s with twi := x, env := e } = .next { t with twi := x, env := e } := by
  rcases takeTick_cases h with ⟨hn, rfl⟩ | ⟨hp, p, hr, rfl⟩
  · exact if_neg hn
  · unfold takeTick
    rw [if_pos hp, hr]

/-- The engine neither reads nor writes the display unit and the timer. -/
theorem engineStep_disp_tmr {ans : BusAnswer} {s t : State} (p : Display) (c : Timer) (h : engineStep ans s = .next t) :
    engineStep ans { s with disp := p, tmr := c } = .next { t with disp := p, tmr := c } := by
  unfold engineStep at h ⊢
  cases ho : s.twi.op <;> simp only [ho] at h ⊢
  case stop =>
    cases h
    unfold completeStop
    split <;> rfl
  case recv k =>
    obtain ⟨v, e, hr, rfl⟩ := completeRecv_cases h
    simp only [completeRecv, hr]
    rfl
  all_goals cases h; rfl

/-- Settles O47: each agent's step commutes with replacing the other units' state. -/
theorem unitsDoNotInterfere : Obligations.UnitsDoNotInterfere := by
  refine ⟨fun m s t x e hm h => ?_, fun ans s t p c h => ?_⟩
  · rcases hm with rfl | rfl
    · cases h
      obtain ⟨htwi, henv, hhist⟩ := timerStep_frame s
      exact ⟨htwi, henv, hhist, congrArg Host.Outcome.next (timerStep_twi_env s x e)⟩
    · obtain ⟨htwi, henv, hhist, -⟩ := takeTick_frame h
      exact ⟨htwi, henv, hhist, takeTick_twi_env x e h⟩
  · refine ⟨?_, ?_, engineStep_disp_tmr p c h⟩
    all_goals rcases engineStep_cases h with ⟨-, rfl⟩ | ⟨-, -, -, -, hd, ht⟩
    · rfl
    · exact hd
    · rfl
    · exact ht

/-! ## Writes (R38) -/

/-- What a TWI command that issues or is refused keeps of the TWI unit: the registers beside TWI_CTRL and TWI_STATUS,
and the phase. -/
structure Twi.CommandKeeps (t u : Twi) : Prop where
  phase : u.phase = t.phase
  data : u.data = t.data
  br : u.br = t.br

theorem Twi.unlessBusy_keeps {t : Twi} {f : Twi → Twi} (h : t.CommandKeeps (f t)) :
    t.CommandKeeps (t.unlessBusy f) := by
  unfold Twi.unlessBusy
  split
  · exact h
  · exact ⟨rfl, rfl, rfl⟩

theorem Twi.issueUnlessReceiving_keeps (t : Twi) (d : Byte) (o : TwiOp) :
    t.CommandKeeps ((t.configure d).issueUnlessReceiving o) := by
  rcases (t.configure d).issueUnlessReceiving_cases o with ⟨-, h⟩ | ⟨-, h⟩ <;> rw [h] <;> exact ⟨rfl, rfl, rfl⟩

theorem Twi.transfer_keeps (t : Twi) (d : Byte) (k : Bool) : t.CommandKeeps ((t.configure d).transfer k) := by
  rcases (t.configure d).transfer_cases k with ⟨-, h⟩ | ⟨-, h⟩ | ⟨-, h⟩ | ⟨-, h⟩ <;> rw [h] <;> exact ⟨rfl, rfl, rfl⟩

/-- All a write can make of state `s`, by the offset it names: the fields it may write, whatever their values, and no
others. -/
inductive WriteEffect (s : State) : Instr → State → Prop
  | disable (d : Byte) (e : BusEnv) (h : List BusEvent) :
      WriteEffect s (.twiDisable d) { s with twi := s.twi.disable d, env := e, history := h }
  | command {i : Instr} {u : Twi} (hi : i.offset = 0x0) (keeps : s.twi.CommandKeeps u) :
      WriteEffect s i { s with twi := u }
  | twiData {i : Instr} (hi : i.offset = 0x2) (v : Byte) (b : Bool) :
      WriteEffect s i { s with twi := { s.twi with data := v, wc := b } }
  | twiBr {i : Instr} (hi : i.offset = 0x3) (v : Byte) : WriteEffect s i { s with twi := { s.twi with br := v } }
  | digit {i : Instr} {n : Slot} (hi : i.offset = regDigit n) (v : Byte) :
      WriteEffect s i { s with disp := s.disp.setSlot n v }
  | digitRefused {i : Instr} {n : Slot} (hi : i.offset = regDigit n) :
      WriteEffect s i { s with disp := { s.disp with derr := true } }
  | dispStatus {i : Instr} (hi : i.offset = 0x8) (b : Bool) :
      WriteEffect s i { s with disp := { s.disp with derr := b } }
  | tmrCtrl {i : Instr} (hi : i.offset = 0xB) (tie lock : Bool) (cs : BitVec 3) :
      WriteEffect s i { s with tmr := { s.tmr with tie := tie, lock := lock, cs := cs } }
  | tmrFlags {i : Instr} (hi : i.offset = 0xD) (ovr ovf : Bool) :
      WriteEffect s i { s with tmr := { s.tmr with ovr := ovr, ovf := ovf } }
  | ignored (i : Instr) : WriteEffect s i s

theorem command_writeEffect {i : Instr} {d : Byte} {s t : State} {f : Twi → Twi} (hi : encode i = writeWord 0x0 d)
    (h : (.next { s with twi := s.twi.unlessBusy f } : Host.Outcome State Fault Refusal) = .next t)
    (hf : s.twi.CommandKeeps (f s.twi)) : WriteEffect s i t := by
  cases h
  exact .command (Instr.offset_of_writeWord hi) (Twi.unlessBusy_keeps hf)

theorem exec_writeEffect {i : Instr} {s t : State} (hi : i.isRead = false) (h : exec i s = .next t) :
    WriteEffect s i t := by
  cases i <;> cases hi
  case twiDisable d =>
    cases h
    rcases s.releaseBus_cases with ⟨-, hr⟩ | ⟨-, hr⟩ <;> rw [hr] <;> exact .disable d _ _
  case twiConfig d => exact command_writeEffect rfl h ⟨rfl, rfl, rfl⟩
  case twiStart d => exact command_writeEffect rfl h (s.twi.issueUnlessReceiving_keeps d .start)
  case twiStop d => exact command_writeEffect rfl h (s.twi.issueUnlessReceiving_keeps d .stop)
  case twiXfer d => exact command_writeEffect rfl h (s.twi.transfer_keeps d (ctrlEA d))
  case twiCmdReserved d => exact command_writeEffect rfl h ⟨rfl, rfl, rfl⟩
  case twiDataWr d =>
    cases h
    split
    · exact .twiData (Instr.offset_of_writeWord rfl) d false
    · exact .twiData (Instr.offset_of_writeWord rfl) s.twi.data true
  case twiBrWr d => cases h; exact .twiBr (Instr.offset_of_writeWord rfl) d
  case dispDigitWr n d =>
    cases h
    split
    · exact .digit (Instr.offset_of_writeWord rfl) d
    · exact .digitRefused (n := n) (Instr.offset_of_writeWord rfl)
  case dispStatusWr d => cases h; exact .dispStatus (Instr.offset_of_writeWord rfl) _
  case tmrCtrlWr d =>
    cases h
    split
    · exact .tmrCtrl (Instr.offset_of_writeWord rfl) (tmrTIE d) s.tmr.lock s.tmr.cs
    · exact .tmrCtrl (Instr.offset_of_writeWord rfl) (tmrTIE d) _ (tmrCS d)
  case tmrFlagsWr d => cases h; exact .tmrFlags (Instr.offset_of_writeWord rfl) _ _
  all_goals cases h; exact .ignored _

/-- States `s` and `t` agree on the register at offset `off`: one field for each register, left out where the two agree
by definition. -/
structure SameRegister (s t : State) (off : Offset) : Prop where
  twiCtrl : off = 0x0 → t.twi.ctrlValue = s.twi.ctrlValue := by exact fun _ => rfl
  twiStatus : off = 0x1 → t.twi.status = s.twi.status := by exact fun _ => rfl
  twiData : off = 0x2 → t.twi.data = s.twi.data := by exact fun _ => rfl
  twiBr : off = 0x3 → t.twi.br = s.twi.br := by exact fun _ => rfl
  digit : ∀ n, off = regDigit n → t.disp.slot n = s.disp.slot n := by exact fun _ _ => rfl
  dispStatus : off = 0x8 → t.disp.statusValue = s.disp.statusValue := by exact fun _ => rfl
  dispSel : off = 0x9 → t.disp.selValue = s.disp.selValue := by exact fun _ => rfl
  dispSeg : off = 0xA → t.disp.seg = s.disp.seg := by exact fun _ => rfl
  tmrCtrl : off = 0xB → t.tmr.ctrlValue = s.tmr.ctrlValue := by exact fun _ => rfl
  tmrCount : off = 0xC → t.tmr.count = s.tmr.count := by exact fun _ => rfl
  tmrFlags : off = 0xD → t.tmr.flagsValue = s.tmr.flagsValue := by exact fun _ => rfl

theorem SameRegister.readReg {s t : State} {off : Offset} (h : SameRegister s t off) :
    t.readReg off = s.readReg off := by
  cases off using Offset.registerCases
  case twiCtrl => exact h.twiCtrl rfl
  case twiStatus => exact h.twiStatus rfl
  case twiData => exact h.twiData rfl
  case twiBr => exact h.twiBr rfl
  case digit n => simpa using h.digit n rfl
  case dispStatus => exact h.dispStatus rfl
  case dispSel => exact h.dispSel rfl
  case dispSeg => exact h.dispSeg rfl
  case tmrCtrl => exact h.tmrCtrl rfl
  case tmrCount => exact h.tmrCount rfl
  case tmrFlags => exact h.tmrFlags rfl
  case rsvd o => simp

/-- The registers an access may change beside its own (R38): TWI_STATUS by a TWI_CTRL write, TWI_CTRL (its WC) by a
TWI_DATA write, DISP_STATUS (its DERR) by a digit write. -/
def WrittenBeside (i : Instr) (off : Offset) : Prop :=
  (i.offset = 0x0 ∧ off = 0x1) ∨ (i.offset = 0x2 ∧ off = 0x0) ∨ ((∃ n, i.offset = regDigit n) ∧ off = 0x8)

theorem WriteEffect.sameRegister {i : Instr} {s t : State} (h : WriteEffect s i t) {off : Offset}
    (hown : off ≠ i.offset) (hbeside : ¬WrittenBeside i off) : SameRegister s t off := by
  have own : ∀ {k : Offset} {p : Prop}, i.offset = k → off = k → p := fun hi e => absurd (e.trans hi.symm) hown
  have status : ∀ {p : Prop}, i.offset = 0x0 → off = 0x1 → p := fun hi e => absurd (.inl ⟨hi, e⟩) hbeside
  have ctrl : ∀ {p : Prop}, i.offset = 0x2 → off = 0x0 → p := fun hi e => absurd (.inr (.inl ⟨hi, e⟩)) hbeside
  cases h with
  | disable d e h =>
    have hi := Instr.offset_of_writeWord (i := .twiDisable d) rfl
    exact { twiCtrl := own hi, twiStatus := status hi }
  | command hi keeps =>
    exact { twiCtrl := own hi, twiStatus := status hi, twiData := fun _ => keeps.data, twiBr := fun _ => keeps.br }
  | twiData hi v b => exact { twiCtrl := ctrl hi, twiData := own hi }
  | twiBr hi v => exact { twiBr := own hi }
  | digit hi v =>
    exact { digit := fun m hm => s.disp.slot_setSlot_other v fun hmn => own hi (hmn ▸ hm) }
  | digitRefused hi => exact { dispStatus := fun e => absurd (.inr (.inr ⟨⟨_, hi⟩, e⟩)) hbeside }
  | dispStatus hi b => exact { dispStatus := own hi }
  | tmrCtrl hi tie lock cs => exact { tmrCtrl := own hi }
  | tmrFlags hi ovr ovf => exact { tmrFlags := own hi }
  | ignored => exact {}

theorem WriteEffect.surroundings {i : Instr} {s t : State} (h : WriteEffect s i t) :
    t.readLog = s.readLog ∧ t.pinLog = s.pinLog ∧ t.host = s.host ∧ t.params = s.params ∧ t.agenda = s.agenda := by
  cases h <;> exact ⟨rfl, rfl, rfl, rfl, rfl⟩

theorem WriteEffect.op_eq {i : Instr} {s t : State} (h : WriteEffect s i t) (hi : i.offset ≠ 0x0) :
    t.twi.op = s.twi.op := by
  cases h with
  | disable d e h => exact absurd (Instr.offset_of_writeWord rfl) hi
  | command h0 keeps => exact absurd h0 hi
  | _ => rfl

theorem WriteEffect.bus_eq {i : Instr} {s t : State} (h : WriteEffect s i t) (hi : ∀ d, i ≠ .twiDisable d) :
    t.history = s.history ∧ t.env = s.env ∧ t.twi.phase = s.twi.phase := by
  cases h with
  | disable d e h => exact absurd rfl (hi d)
  | command h0 keeps => exact ⟨rfl, rfl, keeps.phase⟩
  | _ => exact ⟨rfl, rfl, rfl⟩

theorem exec_twiDataWr_frame {d : Byte} {s t : State} (h : exec (.twiDataWr d) s = .next t) :
    t = { s with twi := { s.twi with data := t.twi.data, wc := t.twi.wc } } := by
  cases h
  split <;> rfl

theorem exec_dispDigitWr_frame {n : Slot} {d : Byte} {s t : State} (h : exec (.dispDigitWr n d) s = .next t) :
    t = { s with disp := { s.disp with digit := t.disp.digit, derr := t.disp.derr } } := by
  cases h
  split <;> rfl

theorem regDigit_eq (n : Slot) : regDigit n = 0x4 ∨ regDigit n = 0x5 ∨ regDigit n = 0x6 ∨ regDigit n = 0x7 := by
  revert n; decide

/-- Settles O45: each clause is read off the one list of what a write can do. -/
theorem writesChangeOnlyTheirRegisters : Obligations.WritesChangeOnlyTheirRegisters := by
  intro i s t hi h
  have effect := exec_writeEffect hi h
  obtain ⟨hread, hpin, hhost, hparams, hagenda⟩ := effect.surroundings
  refine ⟨fun off hown hstatus hctrl hderr => (effect.sameRegister hown ?_).readReg, hread, hpin, hhost, hparams,
    hagenda, effect.op_eq, ?_, ?_, effect.bus_eq⟩
  · rintro (hb | hb | ⟨⟨n, hn⟩, hoff⟩)
    · exact hstatus hb
    · exact hctrl hb
    · exact hderr ⟨hn ▸ regDigit_eq n, hoff⟩
  · rintro d rfl
    exact exec_twiDataWr_frame h
  · rintro n d rfl
    exact exec_dispDigitWr_frame h

end Sys2Proof.Machine

namespace Sys2Proof

/-! # Encoding (spec/30_encoding.md)

An access and its word go into each other: the words of writes and of reads are decoded by their offset, and every
offset names one register. The opcode table is then a fact about its 29 rows of mask and match alone. -/

open Machine (regDigit)

/-! ## The accesses at an offset (R49, R52) -/

@[simp] theorem decodeWrite_regDigit (n : Slot) (d : Byte) : decodeWrite (regDigit n) d = .dispDigitWr n d := by
  obtain rfl | rfl | rfl | rfl : n = 0 ∨ n = 1 ∨ n = 2 ∨ n = 3 := by revert n; decide
  all_goals rfl

@[simp] theorem decodeRead_regDigit (n : Slot) : decodeRead (regDigit n) = .dispDigitRd n := by
  revert n; decide

@[simp] theorem decodeWrite_rsvd (o : BitVec 1) (d : Byte) : decodeWrite (0b111#3 ++ o) d = .rsvdWr o d := by
  obtain rfl | rfl : o = 0 ∨ o = 1 := by revert o; decide
  all_goals rfl

@[simp] theorem decodeRead_rsvd (o : BitVec 1) : decodeRead (0b111#3 ++ o) = .rsvdRd o := by
  revert o; decide

/-! ## The operations of a TWI_CTRL write (R51) -/

/-- An operation whose byte has the bits of its row is the one R51 selects. -/
theorem decodeCtrlWrite_of_wellFormed {i : Instr} {d : Byte}
    (hi : i ∈ [.twiDisable d, .twiConfig d, .twiStart d, .twiStop d, .twiXfer d, .twiCmdReserved d])
    (h : i.wellFormed = true) : decodeCtrlWrite d = i := by
  simp only [List.mem_cons, List.not_mem_nil, or_false] at hi
  rcases hi with rfl | rfl | rfl | rfl | rfl | rfl <;> simp_all [Instr.wellFormed, decodeCtrlWrite]

/-- The operation R51 selects for a byte has that byte's word, and the byte has the bits of its row. -/
theorem decodeCtrlWrite_encode_wellFormed (d : Byte) :
    encode (decodeCtrlWrite d) = writeWord 0x0 d ∧ (decodeCtrlWrite d).wellFormed = true := by
  unfold decodeCtrlWrite
  split
  · exact ⟨rfl, by simp_all [Instr.wellFormed]⟩
  split
  · exact ⟨rfl, by simp_all [Instr.wellFormed]⟩
  split <;> exact ⟨rfl, by simp_all [Instr.wellFormed]⟩

/-! ## Decoding after encoding -/

theorem decode_encode_of_write {i : Instr} {off : Offset} {d : Byte} (he : encode i = writeWord off d)
    (hd : decodeWrite off d = i) : decode (encode i) = .ok i := by
  rw [he, decode_writeWord, hd]

theorem decode_encode_of_read {i : Instr} {off : Offset} (he : encode i = readWord off) (hd : decodeRead off = i) :
    decode (encode i) = .ok i := by
  rw [he, decode_readWord, hd]

/-- Settles O3: each access is found again at its offset, and a TWI_CTRL operation by the bits of its byte. -/
theorem decodeOfEncode : Obligations.DecodeOfEncode := by
  intro i h
  cases i
  case twiDisable d | twiConfig d | twiStart d | twiStop d | twiXfer d | twiCmdReserved d =>
    exact decode_encode_of_write rfl (decodeCtrlWrite_of_wellFormed (by simp) h)
  case dispDigitWr n d => exact decode_encode_of_write rfl (decodeWrite_regDigit n d)
  case dispDigitRd n => exact decode_encode_of_read rfl (decodeRead_regDigit n)
  case rsvdWr o d => exact decode_encode_of_write rfl (decodeWrite_rsvd o d)
  case rsvdRd o => exact decode_encode_of_read rfl (decodeRead_rsvd o)
  case twiCtrlRd | twiStatusRd | twiDataRd | twiBrRd | dispStatusRd | dispSelRd | dispSegRd | tmrCtrlRd | tmrCountRd |
      tmrFlagsRd =>
    exact decode_encode_of_read rfl rfl
  all_goals exact decode_encode_of_write rfl rfl

/-! ## Encoding after decoding -/

theorem decodeWrite_encode_wellFormed (off : Offset) (d : Byte) :
    encode (decodeWrite off d) = writeWord off d ∧ (decodeWrite off d).wellFormed = true := by
  cases off using Machine.Offset.registerCases
  case twiCtrl => exact decodeCtrlWrite_encode_wellFormed d
  case digit n => rw [decodeWrite_regDigit]; exact ⟨rfl, rfl⟩
  case rsvd o => rw [decodeWrite_rsvd]; exact ⟨rfl, rfl⟩
  all_goals exact ⟨rfl, rfl⟩

theorem decodeRead_encode_wellFormed (off : Offset) :
    encode (decodeRead off) = readWord off ∧ (decodeRead off).wellFormed = true := by
  cases off using Machine.Offset.registerCases
  case digit n => rw [decodeRead_regDigit]; exact ⟨rfl, rfl⟩
  case rsvd o => rw [decodeRead_rsvd]; exact ⟨rfl, rfl⟩
  all_goals exact ⟨rfl, rfl⟩

/-- All a word can decode to: it is a write word or a read word, and spells the access at its offset. -/
theorem decode_ok_cases {w : Word} {i : Instr} (h : decode w = .ok i) :
    (∃ off d, w = writeWord off d ∧ i = decodeWrite off d) ∨ ∃ off, w = readWord off ∧ i = decodeRead off := by
  unfold decode at h
  split at h
  next => cases h
  next hz =>
    split at h
    next hw =>
      cases h
      exact .inl ⟨_, _, (writeWord_fields (not_not.mp hz) hw).symm, rfl⟩
    next hw =>
      split at h
      next => cases h
      next hd =>
        cases h
        exact .inr ⟨_, (readWord_fields (not_not.mp hz) (Bool.eq_false_iff.mpr hw) (not_not.mp hd)).symm, rfl⟩

/-- Settles O4: such a word is that of its offset and byte, and so is the access found there. -/
theorem encodeOfDecode : Obligations.EncodeOfDecode := by
  intro w i h
  rcases decode_ok_cases h with ⟨off, d, rfl, rfl⟩ | ⟨off, rfl, rfl⟩
  · exact decodeWrite_encode_wellFormed off d
  · exact decodeRead_encode_wellFormed off

/-! ## Words that spell no access (R48) -/

theorem decode_error_iff (w : Word) :
    (∃ why, decode w = .error why) ↔ fieldZ w ≠ 0 ∨ (fieldW w = false ∧ fieldData w ≠ 0) := by
  unfold decode
  split
  next hz => exact ⟨fun _ => .inl hz, fun _ => ⟨_, rfl⟩⟩
  next hz =>
    split
    next hw => simp [not_not.mp hz, hw]
    next hw =>
      split
      next hd => exact ⟨fun _ => .inr ⟨Bool.eq_false_iff.mpr hw, hd⟩, fun _ => ⟨_, rfl⟩⟩
      next hd => simp [not_not.mp hz, not_not.mp hd]

/-- A word under the mask of n bits from bit k on is that field, in its place. -/
theorem and_fieldMask (w : Word) (k n : Nat) :
    w &&& ((BitVec.allOnes n).setWidth 16 <<< k) = (w.extractLsb' k n).setWidth 16 <<< k := by
  ext i hi
  by_cases hk : i < k
  · simp [hk]
  · by_cases hn : i - k < n <;> simp [hk, hn, Nat.add_sub_cancel' (Nat.le_of_not_lt hk), BitVec.getLsbD_eq_getElem hi]

theorem fieldZ_eq_zero_iff (w : Word) : fieldZ w = 0 ↔ w &&& 0x7000 = 0 := by
  refine ⟨fun h => ?_, fun h => fieldZ_of_mask h rfl⟩
  have place : w &&& 0x7000 = (fieldZ w).setWidth 16 <<< 12 := and_fieldMask w 12 3
  simpa [h] using place

theorem fieldData_eq_zero_iff (w : Word) : fieldData w = 0 ↔ w &&& 0x00FF = 0 := by
  refine ⟨fun h => ?_, fun h => fieldData_of_mask h rfl⟩
  have place : w &&& 0x00FF = (fieldData w).setWidth 16 <<< 0 := and_fieldMask w 0 8
  simpa [h] using place

theorem fieldW_eq_false_iff (w : Word) : fieldW w = false ↔ w &&& 0x8000 = 0 := by
  refine ⟨fun h => ?_, fun h => fieldW_of_mask h rfl⟩
  have place : w &&& 0x8000 = if fieldW w then 0x8000 else 0 := BitVec.and_twoPow w 15
  simpa [h] using place

end Sys2Proof

namespace Sys2Proof.Machine

theorem hostWord_of_error {w : Word} {why : NotAccess} (h : decode w = .error why) (s : State) :
    hostWord w s = .refused (.notAnAccess why) := by
  rw [hostWord, h]

/-- Settles O2: a word decodes by its fields, and a step that meets a host word is that word's access or refusal. -/
theorem nonAccessWordsAreRefused : Obligations.NonAccessWordsAreRefused := by
  intro w
  refine ⟨?_, fun s rest why hl ha hd => ?_⟩
  · rw [decode_error_iff, fieldW_eq_false_iff, Ne, Ne, Ne, Ne, fieldZ_eq_zero_iff, fieldData_eq_zero_iff]
  · rw [step_of_legal hl ha]
    exact hostWord_of_error hd _

end Sys2Proof.Machine

namespace Sys2Proof

/-! ## The opcode table (R52) -/

/-- The word of every well-formed access is of its row. -/
theorem encode_matches_row (i : Instr) : Laws.OpcodeRow.Statement i := by
  cases i
  open Laws.OpcodeRow in
  exacts [twiDisable _, twiConfig _, twiStart _, twiStop _, twiXfer _, twiCmdReserved _, twiCtrlRd, twiStatusWr _,
    twiStatusRd, twiDataWr _, twiDataRd, twiBrWr _, twiBrRd, dispDigitWr _ _, dispDigitRd _, dispStatusWr _,
    dispStatusRd, dispSelWr _, dispSelRd, dispSegWr _, dispSegRd, tmrCtrlWr _, tmrCtrlRd, tmrCountWr _, tmrCountRd,
    tmrFlagsWr _, tmrFlagsRd, rsvdWr _ _, rsvdRd _]

/-- A word that spells an access is of that access's row. -/
theorem matches_row_of_decode {w : Word} {i : Instr} (h : decode w = .ok i) :
    ∃ r, opcodeTable[i.rowIndex]? = some r ∧ r.matchesWord w = true := by
  obtain ⟨rfl, hwf⟩ := encodeOfDecode w i h
  exact encode_matches_row i hwf

theorem OpcodeRow.matchesWord_iff {r : OpcodeRow} {w : Word} : r.matchesWord w = true ↔ w &&& r.mask = r.pattern :=
  beq_iff_eq

/-- Two rows ask for different bits where both look. -/
abbrev OpcodeRow.Apart (q r : OpcodeRow) : Prop := q.pattern &&& r.mask ≠ r.pattern &&& q.mask

theorem opcodeTable_apart : opcodeTable.Pairwise OpcodeRow.Apart := by decide

theorem OpcodeRow.Apart.not_both {q r : OpcodeRow} (h : q.Apart r) {w : Word} (hq : q.matchesWord w = true)
    (hr : r.matchesWord w = true) : False := by
  rw [OpcodeRow.matchesWord_iff] at hq hr
  exact h (by rw [← hq, ← hr, BitVec.and_assoc, BitVec.and_assoc, BitVec.and_comm q.mask])

/-- No word is of two rows. -/
theorem opcodeTable_disjoint {j k : Nat} {q r : OpcodeRow} {w : Word} (hj : opcodeTable[j]? = some q)
    (hk : opcodeTable[k]? = some r) (hq : q.matchesWord w = true) (hr : r.matchesWord w = true) : j = k := by
  obtain ⟨hjlt, rfl⟩ := List.getElem?_eq_some_iff.mp hj
  obtain ⟨hklt, rfl⟩ := List.getElem?_eq_some_iff.mp hk
  have apart := List.pairwise_iff_getElem.mp opcodeTable_apart
  rcases lt_trichotomy j k with h | h | h
  · exact ((apart j k hjlt hklt h).not_both hq hr).elim
  · exact h
  · exact ((apart k j hklt hjlt h).not_both hr hq).elim

/-- Every row fixes the bits of a write word, or those of a read word. -/
theorem opcodeTable_fixes_kind : ∀ r ∈ opcodeTable,
    (r.mask &&& 0xF000 = 0xF000 ∧ r.pattern &&& 0xF000 = 0x8000) ∨
    (r.mask &&& 0xF0FF = 0xF0FF ∧ r.pattern &&& 0xF0FF = 0) := by decide

/-- A word of some row spells an access. -/
theorem decode_of_matches {r : OpcodeRow} (hr : r ∈ opcodeTable) {w : Word} (h : r.matchesWord w = true) :
    ∃ i, decode w = .ok i := by
  rw [OpcodeRow.matchesWord_iff] at h
  rcases opcodeTable_fixes_kind r hr with ⟨hm, hp⟩ | ⟨hm, hp⟩
  · have hw := and_of_and_mask 0xF000 h
    rw [hm, hp] at hw
    exact ⟨_, decode_of_write hw⟩
  · have hw := and_of_and_mask 0xF0FF h
    rw [hm, hp] at hw
    exact ⟨_, decode_of_read hw⟩

/-- A word is of row k exactly when it spells an access of that row. -/
theorem matchesWord_iff_decode {k : Nat} {r : OpcodeRow} (hk : opcodeTable[k]? = some r) (w : Word) :
    r.matchesWord w = true ↔ ∃ i, decode w = .ok i ∧ i.rowIndex = k := by
  constructor
  · intro h
    obtain ⟨i, hd⟩ := decode_of_matches (List.mem_of_getElem? hk) h
    obtain ⟨q, hq, hqw⟩ := matches_row_of_decode hd
    exact ⟨i, hd, opcodeTable_disjoint hq hk hqw h⟩
  · rintro ⟨i, hd, rfl⟩
    obtain ⟨q, hq, hqw⟩ := matches_row_of_decode hd
    rw [hk] at hq
    cases hq
    exact hqw

/-- A word is of no row exactly when it is refused. -/
theorem matches_none_iff_error (w : Word) :
    (∀ r ∈ opcodeTable, r.matchesWord w = false) ↔ ∃ why, decode w = .error why := by
  constructor
  · intro h
    cases hd : decode w with
    | error why => exact ⟨why, rfl⟩
    | ok i =>
      obtain ⟨r, hr, hrw⟩ := matches_row_of_decode hd
      exact absurd hrw (Bool.eq_false_iff.mp (h r (List.mem_of_getElem? hr)))
  · rintro ⟨why, hd⟩ r hr
    refine Bool.eq_false_iff.mpr fun h => ?_
    obtain ⟨i, hi⟩ := decode_of_matches hr h
    rw [hd] at hi
    cases hi

/-- Settles O5: the rows are told apart by their masks, and each holds the words of its accesses. -/
theorem opcodeRowsDecideDecoding : Obligations.OpcodeRowsDecideDecoding :=
  ⟨rfl, fun w => ⟨fun _ _ hk => matchesWord_iff_decode hk w, fun _ _ _ _ => opcodeTable_disjoint,
    matches_none_iff_error w⟩⟩

/-- Settles O6, by evaluating the decoder on the words of the table. -/
theorem sampleWordsDecode : Obligations.SampleWordsDecode := by
  unfold Obligations.SampleWordsDecode
  decide

end Sys2Proof

namespace Sys2Proof.Machine

/-! ## The accesses of a host script (R55) -/

theorem decodeRead_isRead (off : Offset) : (decodeRead off).isRead = true := by
  revert off; decide

/-- A read word is answered with the read value of its register. -/
theorem hostWord_readWord (off : Offset) (s : State) :
    hostWord (readWord off) s = .next (s.respond (s.readReg off)) := by
  rw [hostWord_of_decode (decode_readWord off), exec_read (decodeRead_isRead off),
    Instr.offset_of_readWord (decodeRead_encode_wellFormed off).1]

/-- No access moves the host's script. -/
theorem exec_host {i : Instr} {s t : State} (h : exec i s = .next t) : t.host = s.host := by
  cases hi : i.isRead with
  | true =>
    rw [exec_read hi] at h
    cases h
    rfl
  | false =>
    obtain ⟨-, -, hhost, -⟩ := (exec_writeEffect hi h).surroundings
    exact hhost

/-- Every write word is performed, and leaves the host's script alone. -/
theorem hostWord_writeWord_next (off : Offset) (d : Byte) (s : State) :
    ∃ t, hostWord (writeWord off d) s = .next t ∧ t.host = s.host := by
  obtain ⟨t, ht⟩ := exec_next (decodeWrite off d) s
  exact ⟨t, by rw [hostWord_writeWord, ht], exec_host ht⟩

/-- The word R55 gives for `W REG, e` is the write word of the low 8 bits of e. -/
theorem writeWord_hostByte (off : Offset) (n : Nat) :
    writeWord off (hostByte n) = 0x8000#16 ||| (off.setWidth 16 <<< 8) ||| BitVec.ofNat 16 (n % 256) := by
  have low : (hostByte n).setWidth 16 = BitVec.ofNat 16 (n % 256) := by
    apply BitVec.eq_of_toNat_eq
    simp [hostByte]
  rw [writeWord, low]

theorem scriptStep_statement {p : Bool} {s : State} {f : HostFrame} {callers : List HostFrame} {st : HostStmt}
    (hf : s.host.frames = f :: callers) (hst : f.code[f.pc]? = some st) :
    scriptStep p s = scriptStatement p st f callers s := by
  simp only [scriptStep, hf, hst]

/-- An access of the script is that of its word, and then the script stands in frame f. -/
theorem scriptAccess_of_next {w : Word} {s t : State} (h : hostWord w s = .next t) (hhost : t.host = s.host)
    (f : HostFrame) (callers : List HostFrame) :
    scriptAccess w f callers s = .next { t with host := { s.host with frames := f :: callers } } := by
  rw [scriptAccess, h, ← hhost]
  rfl

/-- Settles O58: a script statement that makes an access is a host word and a new frame; a POLL that is not met puts
back the frame it found. -/
theorem scriptAccessesAreAccessWords : Obligations.ScriptAccessesAreAccessWords := by
  intro p s f callers reg hf
  refine ⟨fun e hst => ?_, fun x hst => ?_, fun m v hst => ?_⟩
  · obtain ⟨t, ht, hhost⟩ := hostWord_writeWord_next reg (hostByte (e.eval f.vars)) s
    refine ⟨t, writeWord_hostByte reg _ ▸ ht, ?_⟩
    rw [scriptStep_statement hf hst]
    exact scriptAccess_of_next ht hhost _ _
  · refine ⟨_, s.readReg reg, hostWord_readWord reg s, rfl, ?_⟩
    rw [scriptStep_statement hf hst]
    exact scriptAccess_of_next (hostWord_readWord reg s) rfl _ _
  · refine ⟨_, s.readReg reg, hostWord_readWord reg s, rfl, fun hmet => ?_, fun hmet => ?_⟩
    all_goals rw [scriptStep_statement hf hst, scriptStatement, scriptAccess_of_next (hostWord_readWord reg s) rfl]
    · simp [hmet, HostFrame.advance]
    · simp [hmet, ← hf]

end Sys2Proof.Machine

namespace Sys2Proof

/-! # The TWI unit and its engine (spec/40_twi_master.md)

What each completion and each command does is said once, in the phase it is issued in. The bus grammar is then an
induction over histories, and BUS_PROGRESS one over the moves up to the first that ends the operation in flight. -/

/-! ## The words of the TWI rows (R52) -/

theorem fieldOff_of_mask {w p m : Word} (h : w &&& m = p) (hm : fieldOff m = BitVec.allOnes 4) :
    fieldOff w = fieldOff p := by
  rw [← h, fieldOff_and, hm, BitVec.and_allOnes]

/-- A word of a row that fixes W, Z and OFF as those of a write is the write of its DATA at the row's offset. -/
theorem decode_of_writeRow {w p m : Word} (h : w &&& m = p) (hkind : m &&& 0xF000 = 0xF000)
    (hoff : fieldOff m = BitVec.allOnes 4) (hp : p &&& 0xF000 = 0x8000) :
    decode w = .ok (decodeWrite (fieldOff p) (fieldData w)) := by
  have hw := and_of_and_mask 0xF000 h
  rw [hkind, hp] at hw
  rw [decode_of_write hw, fieldOff_of_mask h hoff]

/-- The one word of a row that fixes every bit as those of a read is the read at its offset. -/
theorem readWord_spelled (off : Offset) : SpelledBy (readWord off) 0xFFFF (fun _ => decodeRead off) := by
  intro w h
  rw [show w = readWord off from (BitVec.and_allOnes (x := w)).symm.trans h, decode_readWord]

/-- A word that meets a mask has the pattern's DATA bits where the mask looks. -/
theorem fieldData_bit_of_mask {w p m : Word} (h : w &&& m = p) {k : Nat} (hk : (fieldData m).getLsbD k = true) :
    (fieldData w).getLsbD k = (fieldData p).getLsbD k := by
  rw [← h, fieldData_and, BitVec.getLsbD_and, hk, Bool.and_true]

/-- A row of TWI_CTRL writes spells the operation whose byte it makes well formed. -/
theorem ctrlRow_spelled {p m : Word} {op : Byte → Instr}
    (hop : ∀ d, op d ∈ [.twiDisable d, .twiConfig d, .twiStart d, .twiStop d, .twiXfer d, .twiCmdReserved d])
    (hkind : m &&& 0xF000 = 0xF000) (hoff : fieldOff m = BitVec.allOnes 4) (hp : p &&& 0xFF00 = 0x8000)
    (hwf : ∀ w, w &&& m = p → (op (fieldData w)).wellFormed = true) : SpelledBy p m (fun w => op (fieldData w)) := by
  intro w h
  have hpk : p &&& 0xF000 = 0x8000 := and_of_and_mask 0xF000 hp
  have hpo : fieldOff p = 0x0 := fieldOff_of_mask hp rfl
  rw [decode_of_writeRow h hkind hoff hpk, hpo]
  exact congrArg Except.ok (decodeCtrlWrite_of_wellFormed (hop _) (hwf w h))

theorem twiDisable_spelled : SpelledBy 0x8000 0xFF04 (fun w => .twiDisable (fieldData w)) := by
  refine ctrlRow_spelled (by simp) rfl rfl rfl fun w h => ?_
  rw [Instr.wellFormed, fieldData_bit_of_mask h (k := 2) rfl]
  rfl

theorem twiConfig_spelled : SpelledBy 0x8004 0xFF84 (fun w => .twiConfig (fieldData w)) := by
  refine ctrlRow_spelled (by simp) rfl rfl rfl fun w h => ?_
  rw [Instr.wellFormed, fieldData_bit_of_mask h (k := 2) rfl, fieldData_bit_of_mask h (k := 7) rfl]
  rfl

/-- The rows of the commands fix EN, INT, STA and STO (R51). -/
theorem commandRow_bits {w p : Word} (h : w &&& 0xFFB4 = p) :
    (fieldData w).getLsbD 2 = (fieldData p).getLsbD 2 ∧ (fieldData w).getLsbD 7 = (fieldData p).getLsbD 7 ∧
    (fieldData w).getLsbD 5 = (fieldData p).getLsbD 5 ∧ (fieldData w).getLsbD 4 = (fieldData p).getLsbD 4 :=
  ⟨fieldData_bit_of_mask h rfl, fieldData_bit_of_mask h rfl, fieldData_bit_of_mask h rfl, fieldData_bit_of_mask h rfl⟩

theorem twiStart_spelled : SpelledBy 0x80A4 0xFFB4 (fun w => .twiStart (fieldData w)) := by
  refine ctrlRow_spelled (by simp) rfl rfl rfl fun w h => ?_
  obtain ⟨en, int, sta, sto⟩ := commandRow_bits h
  rw [Instr.wellFormed, en, int, sta, sto]
  rfl

theorem twiStop_spelled : SpelledBy 0x8094 0xFFB4 (fun w => .twiStop (fieldData w)) := by
  refine ctrlRow_spelled (by simp) rfl rfl rfl fun w h => ?_
  obtain ⟨en, int, sta, sto⟩ := commandRow_bits h
  rw [Instr.wellFormed, en, int, sta, sto]
  rfl

theorem twiXfer_spelled : SpelledBy 0x8084 0xFFB4 (fun w => .twiXfer (fieldData w)) := by
  refine ctrlRow_spelled (by simp) rfl rfl rfl fun w h => ?_
  obtain ⟨en, int, sta, sto⟩ := commandRow_bits h
  rw [Instr.wellFormed, en, int, sta, sto]
  rfl

theorem twiCmdReserved_spelled : SpelledBy 0x80B4 0xFFB4 (fun w => .twiCmdReserved (fieldData w)) := by
  refine ctrlRow_spelled (by simp) rfl rfl rfl fun w h => ?_
  obtain ⟨en, int, sta, sto⟩ := commandRow_bits h
  rw [Instr.wellFormed, en, int, sta, sto]
  rfl

end Sys2Proof

namespace Sys2Proof.Machine

/-! ## The TWI engine's completions (R76 to R81) -/

theorem engineStep_start {s : State} (ans : BusAnswer) (h : s.twi.op = .start) :
    engineStep ans s = .next (completeStart s) := by rw [engineStep, h]

theorem engineStep_stop {s : State} (ans : BusAnswer) (h : s.twi.op = .stop) :
    engineStep ans s = .next (completeStop s) := by rw [engineStep, h]

theorem engineStep_sendAddr {s : State} {b : Byte} (ans : BusAnswer) (h : s.twi.op = .sendAddr b) :
    engineStep ans s = .next (completeAddr b ans s) := by rw [engineStep, h]

theorem engineStep_sendData {s : State} {b : Byte} (ans : BusAnswer) (h : s.twi.op = .sendData b) :
    engineStep ans s = .next (completeData b ans s) := by rw [engineStep, h]

theorem engineStep_recv {s : State} {k : Bool} (ans : BusAnswer) (h : s.twi.op = .recv k) :
    engineStep ans s = completeRecv k ans s := by rw [engineStep, h]

/-- Settles O21: whether the START is the first of a transaction is whether the bus was idle. -/
theorem startCompletion : Obligations.StartCompletion := by
  intro s ans h
  rw [engineStep_start ans h, completeStart]
  have hfirst : (s.twi.phase == .idle) = decide (s.twi.phase = .idle) := rfl
  by_cases hp : s.twi.phase = .idle <;> simp [hfirst, hp, startStatus, State.emit]

/-- Settles O22: only an owned bus carries the STOP. -/
theorem stopCompletion : Obligations.StopCompletion := by
  intro s ans h
  rw [engineStep_stop ans h, completeStop]
  by_cases hp : s.twi.phase = .idle <;> simp [hp, statusNoInfo, State.emit]

theorem addrStatus_eq (isRead ack : Bool) :
    addrStatus isRead ack = if isRead = false then (if ack then 0x18 else 0x20) else (if ack then 0x40 else 0x48) := by
  cases isRead <;> cases ack <;> rfl

theorem addrPhase_eq (isRead ack : Bool) :
    addrPhase isRead ack = if ack = false then .addrNack else if isRead = false then .mt else .mr := by
  cases isRead <;> cases ack <;> rfl

/-- Settles O23: the direction bit of the byte and the acknowledge select phase and status. -/
theorem addressCompletion : Obligations.AddressCompletion := by
  intro s ans b a e h hans
  rw [engineStep_sendAddr ans h, completeAddr, hans, addrStatus_eq, addrPhase_eq]
  rfl

/-- Settles O24: the acknowledge selects the status. -/
theorem dataCompletion : Obligations.DataCompletion := by
  intro s ans b a e h hans
  rw [engineStep_sendData ans h, completeData, hans]
  rfl

/-- Settles O25: the acknowledge bit that was issued selects phase and status. -/
theorem receiveCompletion : Obligations.ReceiveCompletion := by
  intro s ans k v e h hans
  rw [engineStep_recv ans h, completeRecv, hans]
  rfl

/-- Every completion sets INT but that of a STOP, which leaves it (R77 to R81). -/
theorem engineStep_int {ans : BusAnswer} {s t : State} (h : engineStep ans s = .next t) (hop : s.twi.op ≠ .none) :
    t.twi.int = if s.twi.op = .stop then s.twi.int else true := by
  cases ho : s.twi.op with
  | none => exact absurd ho hop
  | start => rw [engineStep_start ans ho] at h; cases h; rfl
  | stop => rw [stopCompletion s ans ho] at h; cases h; rfl
  | sendAddr b => rw [engineStep_sendAddr ans ho] at h; cases h; rfl
  | sendData b => rw [engineStep_sendData ans ho] at h; cases h; rfl
  | recv k =>
    rw [engineStep_recv ans ho] at h
    obtain ⟨v, e, -, rfl⟩ := completeRecv_cases h
    rfl

theorem engineStep_idle {s : State} (ans : BusAnswer) (h : s.twi.op = .none) : engineStep ans s = .next s := by
  rw [engineStep, h]

/-- An engine step with an operation in flight takes it away. -/
theorem engineStep_op {ans : BusAnswer} {s t : State} (h : engineStep ans s = .next t) : t.twi.op = .none := by
  rcases engineStep_cases h with ⟨ho, rfl⟩ | ⟨-, hdone, -⟩
  · exact ho
  · exact hdone

/-- Settles O20: legality finds a receive its byte, and keeps INT = 0 while a STOP is in flight (R19). -/
theorem engineCompletesOperationInFlight : Obligations.EngineCompletesOperationInFlight := by
  intro s ans hl
  refine ⟨engineStep_idle ans, fun hop => ?_⟩
  obtain ⟨hquiet, -, -, -, hwf⟩ := hl
  obtain ⟨t, ht⟩ := engineStep_next ans hwf
  refine ⟨t, ht, engineStep_op ht, ?_⟩
  rw [engineStep_int ht hop, (hquiet hop).1]
  by_cases hs : s.twi.op = .stop <;> simp [hs]

/-! ## TWI_CTRL writes (R59 to R68) -/

/-- A TWI_CTRL write other than a disable is ignored while an operation is in flight (R59). -/
theorem command_busy {s : State} (h : s.twi.op ≠ .none) (f : Twi → Twi) :
    (.next { s with twi := s.twi.unlessBusy f } : Host.Outcome State Fault Refusal) = .next s := by
  rw [Twi.unlessBusy_busy h]

theorem command_free {s : State} (h : s.twi.op = .none) (f : Twi → Twi) :
    (.next { s with twi := s.twi.unlessBusy f } : Host.Outcome State Fault Refusal) =
      .next { s with twi := f s.twi } := by
  rw [Twi.unlessBusy_free h]

theorem exec_twiConfig_free {s : State} (d : Byte) (h : s.twi.op = .none) :
    exec (.twiConfig d) s = .next { s with twi := s.twi.configure d } := command_free h _

theorem exec_twiStart_free {s : State} (d : Byte) (h : s.twi.op = .none) :
    exec (.twiStart d) s = .next { s with twi := (s.twi.configure d).issueUnlessReceiving .start } := command_free h _

theorem exec_twiStop_free {s : State} (d : Byte) (h : s.twi.op = .none) :
    exec (.twiStop d) s = .next { s with twi := (s.twi.configure d).issueUnlessReceiving .stop } := command_free h _

theorem exec_twiXfer_free {s : State} (d : Byte) (h : s.twi.op = .none) :
    exec (.twiXfer d) s = .next { s with twi := (s.twi.configure d).transfer (ctrlEA d) } := command_free h _

theorem exec_twiCmdReserved_free {s : State} (d : Byte) (h : s.twi.op = .none) :
    exec (.twiCmdReserved d) s = .next { s with twi := (s.twi.configure d).illegal } := command_free h _

/-! Every command configures first (R59), which leaves the phase that decides whether it is legal. -/

theorem Twi.configure_issueUnlessReceiving_mr {t : Twi} (d : Byte) (o : TwiOp) (h : t.phase = .mr) :
    (t.configure d).issueUnlessReceiving o = (t.configure d).illegal := if_pos h

theorem Twi.configure_issueUnlessReceiving_other {t : Twi} (d : Byte) (o : TwiOp) (h : t.phase ≠ .mr) :
    (t.configure d).issueUnlessReceiving o = (t.configure d).issue o := if_neg h

theorem Twi.configure_transfer_started {t : Twi} (d : Byte) (k : Bool) (h : t.phase = .started) :
    (t.configure d).transfer k = (t.configure d).issue (.sendAddr t.data) := by
  rw [Twi.transfer, Twi.configure_phase, h, Twi.configure_data]

theorem Twi.configure_transfer_mt {t : Twi} (d : Byte) (k : Bool) (h : t.phase = .mt) :
    (t.configure d).transfer k = (t.configure d).issue (.sendData t.data) := by
  rw [Twi.transfer, Twi.configure_phase, h, Twi.configure_data]

theorem Twi.configure_transfer_mr {t : Twi} (d : Byte) (k : Bool) (h : t.phase = .mr) :
    (t.configure d).transfer k = (t.configure d).issue (.recv k) := by
  rw [Twi.transfer, Twi.configure_phase, h]

theorem Twi.configure_transfer_illegal {t : Twi} (d : Byte) (k : Bool)
    (h : t.phase = .idle ∨ t.phase = .addrNack ∨ t.phase = .mrEnd) :
    (t.configure d).transfer k = (t.configure d).illegal := by
  rcases h with h | h | h <;> rw [Twi.transfer, Twi.configure_phase, h]

/-- Every TWI_CTRL write with EN = 1 is ignored while an operation is in flight (R59). -/
theorem exec_decodeCtrlWrite_busy {d : Byte} {s : State} (hen : d.getLsbD 2 ≠ false) (h : s.twi.op ≠ .none) :
    exec (decodeCtrlWrite d) s = .next s := by
  unfold decodeCtrlWrite
  rw [if_neg hen]
  split
  · exact command_busy h _
  · split <;> exact command_busy h _

/-- Settles O8: R51 selects the command, and each command is its column of the legality table. -/
theorem ctrlWriteDispatch : Obligations.CtrlWriteDispatch := by
  intro d s
  have word : hostWord (writeWord 0x0 d) s = exec (decodeCtrlWrite d) s := hostWord_writeWord 0x0 d s
  rw [word]
  split
  next hen => rw [decodeCtrlWrite, if_pos hen]
  next hen =>
    split
    next hbusy => exact exec_decodeCtrlWrite_busy hen hbusy
    next hbusy =>
      have hfree : s.twi.op = .none := not_not.mp hbusy
      unfold decodeCtrlWrite
      rw [if_neg hen]
      by_cases hint : d.getLsbD 7 = false
      · rw [if_pos hint, exec_twiConfig_free d hfree]
        simp only [if_pos hint]
        rfl
      · simp only [if_neg hint]
        cases d.getLsbD 5 <;> cases d.getLsbD 4
        · change exec (.twiXfer d) s = _
          rw [exec_twiXfer_free d hfree]
          dsimp only
          split
          next hp => rw [Twi.configure_transfer_illegal d _ (.inl hp)]; rfl
          next hp => rw [Twi.configure_transfer_started d _ hp]; rfl
          next hp => rw [Twi.configure_transfer_illegal d _ (.inr (.inl hp))]; rfl
          next hp => rw [Twi.configure_transfer_mt d _ hp]; rfl
          next hp => rw [Twi.configure_transfer_mr d _ hp]; rfl
          next hp => rw [Twi.configure_transfer_illegal d _ (.inr (.inr hp))]; rfl
        · exact exec_twiStop_free d hfree
        · exact exec_twiStart_free d hfree
        · exact exec_twiCmdReserved_free d hfree

/-- Settles O9: out of MR the command is issued, and the START completes as R77 says. -/
theorem twiStartIssuesStart : Obligations.TwiStartIssuesStart := by
  refine ⟨twiStart_spelled, fun d s => ⟨fun h => command_busy h _, fun ho hp => ?_, fun ho hp => ?_⟩⟩
  · rw [exec_twiStart_free d ho, Twi.configure_issueUnlessReceiving_mr d .start hp]
    rfl
  · refine ⟨_, ?_, rfl, Twi.ctrlValue_sta _, fun ans => ⟨_, startCompletion _ ans rfl, rfl, rfl⟩⟩
    rw [exec_twiStart_free d ho, Twi.configure_issueUnlessReceiving_other d .start hp]
    rfl

/-- Settles O10: out of MR the command is issued, and the STOP completes as R78 says. -/
theorem twiStopIssuesStop : Obligations.TwiStopIssuesStop := by
  refine ⟨twiStop_spelled, fun d s => ⟨fun h => command_busy h _, fun ho hp => ?_, fun ho hp => ?_⟩⟩
  · rw [exec_twiStop_free d ho, Twi.configure_issueUnlessReceiving_mr d .stop hp]
    rfl
  · refine ⟨_, ?_, rfl, Twi.ctrlValue_sto _, fun ans => ⟨_, stopCompletion _ ans rfl, rfl, Twi.ctrlValue_sto _, rfl⟩⟩
    rw [exec_twiStop_free d ho, Twi.configure_issueUnlessReceiving_other d .stop hp]
    rfl

/-- A transfer writes TWI.op, INT and TWI_STATUS only (R60, R61). -/
theorem Twi.transfer_frame (t : Twi) (k : Bool) :
    t.transfer k = { t with op := (t.transfer k).op, int := (t.transfer k).int, status := (t.transfer k).status } := by
  rcases t.transfer_cases k with ⟨-, h⟩ | ⟨-, h⟩ | ⟨-, h⟩ | ⟨-, h⟩ <;> rw [h] <;> rfl

/-- Settles O17: TWI.op guards the write. -/
theorem twiDataWriteGuarded : Obligations.TwiDataWriteGuarded := by
  refine ⟨fun w h => decode_of_writeRow h rfl rfl rfl, fun d s => ⟨fun h => ?_, fun h => ?_⟩⟩
  · simp [exec, execTwiDataWr, h]
  · simp [exec, execTwiDataWr, h]

/-- Settles O11: a free transfer is issued or refused by its phase, and what it issued guards TWI_DATA. -/
theorem twiXferByPhase : Obligations.TwiXferByPhase := by
  refine ⟨twiXfer_spelled, fun d s => ⟨fun h => command_busy h _, fun ho => ?_⟩⟩
  have frame := Twi.transfer_frame (s.twi.configure d) (ctrlEA d)
  refine ⟨_, exec_twiXfer_free d ho, by rw [frame]; rfl, by rw [frame]; rfl, by rw [frame]; rfl, by rw [frame]; rfl,
    by rw [frame]; rfl, by rw [frame]; rfl, fun hp => ?_, fun hp => ?_, fun hp => ?_, fun hp => ?_, fun hop e => ?_⟩
  · rw [Twi.configure_transfer_started d _ hp]; exact ⟨rfl, rfl, rfl⟩
  · rw [Twi.configure_transfer_mt d _ hp]; exact ⟨rfl, rfl, rfl⟩
  · rw [Twi.configure_transfer_mr d _ hp]; exact ⟨rfl, rfl, rfl⟩
  · rw [Twi.configure_transfer_illegal d _ hp]; exact ⟨ho, rfl, rfl⟩
  · exact ⟨_, (twiDataWriteGuarded.2 e _).1 hop, by rw [frame]; rfl⟩

/-- Settles O12: a free TWI_CMD_RESERVED looks at no phase. -/
theorem twiCmdReservedIsIllegal : Obligations.TwiCmdReservedIsIllegal :=
  ⟨twiCmdReserved_spelled, fun d _ => ⟨fun h => command_busy h _, exec_twiCmdReserved_free d⟩⟩

/-- Settles O13: a free TWI_CONFIG configures. -/
theorem twiConfigSetsEnAndEa : Obligations.TwiConfigSetsEnAndEa :=
  ⟨twiConfig_spelled, fun d _ => ⟨fun h => command_busy h _, exec_twiConfig_free d⟩⟩

/-- Settles O14: an owned bus is released, an idle one left alone, and no operation is left for the engine. -/
theorem twiDisableReleases : Obligations.TwiDisableReleases := by
  refine ⟨twiDisable_spelled, fun d s => ⟨_, ?_, rfl, fun ans => engineStep_idle ans rfl⟩⟩
  change Host.Outcome.next { s.releaseBus with twi := s.twi.disable d } = _
  rcases s.releaseBus_cases with ⟨hp, hr⟩ | ⟨hp, hr⟩ <;> rw [hr]
  · simp only [if_pos hp, List.append_nil]; rfl
  · simp only [if_neg hp]; rfl

/-! ## The other TWI registers (R69 to R75) -/

/-- Settles O15: these words decode to accesses that do nothing. -/
theorem statusAndCountIgnoreWrites : Obligations.StatusAndCountIgnoreWrites :=
  ⟨fun _ h => decode_of_writeRow h rfl rfl rfl, fun _ h => decode_of_writeRow h rfl rfl rfl, fun _ _ => ⟨rfl, rfl⟩⟩

/-- TWI_CTRL reads as the sum of its flags at their places (R14). -/
theorem Twi.ctrlValue_toNat (t : Twi) :
    t.ctrlValue.toNat = 128 * t.int.toNat + 64 * t.ea.toNat + 32 * (decide (t.op = .start)).toNat
      + 16 * (decide (t.op = .stop)).toNat + 8 * t.wc.toNat + 4 * t.en.toNat := by
  have sta : (t.op == .start) = decide (t.op = .start) := rfl
  have sto : (t.op == .stop) = decide (t.op = .stop) := rfl
  rw [Twi.ctrlValue, sta, sto]
  generalize t.int = a, t.ea = b, decide (t.op = .start) = c, decide (t.op = .stop) = d, t.wc = e, t.en = f
  revert a b c d e f
  decide

/-- Settles O19: a read answers its register's read value. -/
theorem twiReadsReturnRegisters : Obligations.TwiReadsReturnRegisters :=
  ⟨readWord_spelled 0x0, readWord_spelled 0x1, readWord_spelled 0x2, readWord_spelled 0x3,
    fun s => ⟨⟨_, exec_read rfl s, s.twi.ctrlValue_toNat⟩, exec_read rfl s, exec_read rfl s, exec_read rfl s⟩⟩

end Sys2Proof.Machine

namespace Sys2Proof.Machine

/-! ## TWI_BR is read by nothing but its own read (R74) -/

theorem Twi.unlessBusy_br {t : Twi} {f : Twi → Twi} (d : Byte)
    (hf : f { t with br := d } = { f t with br := d }) :
    Twi.unlessBusy { t with br := d } f = { t.unlessBusy f with br := d } := by
  by_cases h : t.op = .none
  · rw [Twi.unlessBusy_free h, Twi.unlessBusy_free (t := { t with br := d }) h, hf]
  · rw [Twi.unlessBusy_busy h, Twi.unlessBusy_busy (t := { t with br := d }) h]

theorem Twi.issueUnlessReceiving_br (t : Twi) (d : Byte) (o : TwiOp) :
    Twi.issueUnlessReceiving { t with br := d } o = { t.issueUnlessReceiving o with br := d } := by
  unfold Twi.issueUnlessReceiving
  split <;> rfl

theorem Twi.transfer_br (t : Twi) (d : Byte) (k : Bool) :
    Twi.transfer { t with br := d } k = { t.transfer k with br := d } := by
  unfold Twi.transfer
  dsimp only
  split <;> rfl

/-- A command that does not read TWI_BR, held back while busy or not, makes an access that does not. -/
theorem command_br {s t : State} {f : Twi → Twi} (d : Byte)
    (h : (.next { s with twi := s.twi.unlessBusy f } : Host.Outcome State Fault Refusal) = .next t)
    (hf : f { s.twi with br := d } = { f s.twi with br := d }) :
    (.next { s with twi := Twi.unlessBusy { s.twi with br := d } f } : Host.Outcome State Fault Refusal) =
      .next { t with twi := { t.twi with br := d } } := by
  cases h
  rw [Twi.unlessBusy_br d hf]

/-- No access but the read and write of TWI_BR depends on it. -/
theorem exec_br {i : Instr} {s t : State} (d : Byte) (hr : i ≠ .twiBrRd) (hw : ∀ e, i ≠ .twiBrWr e)
    (h : exec i s = .next t) :
    exec i { s with twi := { s.twi with br := d } } = .next { t with twi := { t.twi with br := d } } := by
  cases i
  case twiBrRd => exact absurd rfl hr
  case twiBrWr e => exact absurd rfl (hw e)
  case twiDisable e =>
    cases h
    change Host.Outcome.next _ = _
    unfold State.releaseBus
    dsimp only
    split <;> rfl
  case twiConfig e => exact command_br d h rfl
  case twiStart e => exact command_br d h (Twi.issueUnlessReceiving_br (s.twi.configure e) d .start)
  case twiStop e => exact command_br d h (Twi.issueUnlessReceiving_br (s.twi.configure e) d .stop)
  case twiXfer e => exact command_br d h (Twi.transfer_br (s.twi.configure e) d (ctrlEA e))
  case twiCmdReserved e => exact command_br d h rfl
  case twiDataWr e =>
    cases h
    change Host.Outcome.next _ = _
    dsimp only
    split <;> rfl
  all_goals cases h; rfl

/-- The engine does not read TWI_BR. -/
theorem engineStep_br {ans : BusAnswer} {s t : State} (d : Byte) (h : engineStep ans s = .next t) :
    engineStep ans { s with twi := { s.twi with br := d } } = .next { t with twi := { t.twi with br := d } } := by
  cases ho : s.twi.op with
  | none => rw [engineStep_idle ans ho] at h; cases h; exact engineStep_idle ans ho
  | start => rw [engineStep_start ans ho] at h; cases h; exact engineStep_start ans ho
  | stop => rw [stopCompletion s ans ho] at h; cases h; exact stopCompletion _ ans ho
  | sendAddr b => rw [engineStep_sendAddr ans ho] at h; cases h; exact engineStep_sendAddr ans ho
  | sendData b => rw [engineStep_sendData ans ho] at h; cases h; exact engineStep_sendData ans ho
  | recv k =>
    rw [engineStep_recv ans ho] at h
    obtain ⟨v, e, hr, rfl⟩ := completeRecv_cases h
    exact receiveCompletion _ ans k v e ho hr

/-- A move of the block or of the environment's clock does not read TWI_BR. -/
theorem runMove_internal_br {m : Move} {s t : State} (d : Byte) (hm : m.isInternal = true)
    (h : runMove m s = .next t) :
    runMove m { s with twi := { s.twi with br := d } } = .next { t with twi := { t.twi with br := d } } := by
  cases m with
  | host r => cases hm
  | script p => cases hm
  | twiEngine ans => exact engineStep_br d h
  | timer =>
    cases h
    obtain ⟨htwi, henv, -⟩ := timerStep_frame s
    rw [htwi, henv]
    exact congrArg Host.Outcome.next (timerStep_twi_env s { s.twi with br := d } s.env)
  | display =>
    obtain ⟨htwi, henv, -⟩ := takeTick_frame h
    rw [htwi, henv]
    exact takeTick_twi_env { s.twi with br := d } s.env h
  | rtcClock x y z => cases h; rfl

/-- Settles O18: every access but those of TWI_BR itself, and every internal move, commutes with replacing TWI_BR. -/
theorem twiBrStoredWithoutEffect : Obligations.TwiBrStoredWithoutEffect :=
  ⟨fun _ h => decode_of_writeRow h rfl rfl rfl, fun _ _ => rfl, fun d _ _ _ hr hw h => exec_br d hr hw h,
    fun d _ _ _ hm h => runMove_internal_br d hm h⟩

/-! ## The bus grammar (R83) -/

/-- The transitions of the phase machine, one for each kind of bus event. -/
inductive Phase.Transition : Phase → BusEvent → Phase → Prop
  | start : Transition .idle .start .started
  | rstart {p : Phase} (hi : p ≠ .idle) (hm : p ≠ .mr) : Transition p .rstart .started
  | addr (b : Byte) (a : Bool) : Transition .started (.addr b a) (addrPhase (addrIsRead b) a)
  | write (b : Byte) (a : Bool) : Transition .mt (.write b a) .mt
  | read (v : Byte) (k : Bool) : Transition .mr (.read v k) (recvPhase k)
  | stop {p : Phase} (hi : p ≠ .idle) (hm : p ≠ .mr) : Transition p .stop .idle
  | release {p : Phase} (hi : p ≠ .idle) : Transition p .release .idle

/-- All the phase machine can do with an event. -/
theorem Phase.transition_of_after {p q : Phase} {e : BusEvent} (h : p.after e = some q) : p.Transition e q := by
  cases e with
  | start => cases p <;> cases h; exact .start
  | rstart => cases p <;> cases h <;> exact .rstart nofun nofun
  | addr b a =>
    cases p
    case started =>
      rw [Phase.after_addr] at h
      cases h
      exact .addr b a
    all_goals cases h
  | write b a => cases p <;> cases h; exact .write b a
  | read v k =>
    cases p
    case mr =>
      rw [Phase.after_read] at h
      cases h
      exact .read v k
    all_goals cases h
  | stop => cases p <;> cases h <;> exact .stop nofun nofun
  | release => cases p <;> cases h <;> exact .release nofun

/-- An open transaction up to the START or repeated START of its last segment. -/
inductive Opening : List BusEvent → Prop
  | start : Opening [.start]
  | rstart {o : List BusEvent} : OpenTransaction o → Opening (o ++ [.rstart])

theorem Opening.openTransaction {o g : List BusEvent} (ho : Opening o) (hg : Segment g) :
    OpenTransaction (o ++ g) := by
  cases ho with
  | start => exact .start g hg
  | rstart ho => rw [List.append_assoc]; exact .rstart _ g ho hg

theorem Opening.readingTransaction {o g : List BusEvent} (ho : Opening o) (hg : ReadingSegment g) :
    ReadingTransaction (o ++ g) := by
  cases ho with
  | start => exact .start g hg
  | rstart ho => rw [List.append_assoc]; exact .rstart _ g ho hg

/-- The history ends in an open transaction whose last segment is so far g. -/
inductive EndsInSegment : List BusEvent → List BusEvent → Prop
  | intro {c o : List BusEvent} (g : List BusEvent) (hc : CompleteTransactions c) (ho : Opening o) :
      EndsInSegment (c ++ (o ++ g)) g

theorem EndsInSegment.append {h g : List BusEvent} (hh : EndsInSegment h g) (e : BusEvent) :
    EndsInSegment (h ++ [e]) (g ++ [e]) := by
  obtain ⟨g, hc, ho⟩ := hh
  simpa using EndsInSegment.intro (g ++ [e]) hc ho

theorem EndsInSegment.rstart {h g : List BusEvent} (hh : EndsInSegment h g) (hg : Segment g) :
    EndsInSegment (h ++ [.rstart]) [] := by
  obtain ⟨g, hc, ho⟩ := hh
  simpa using EndsInSegment.intro [] hc (.rstart (ho.openTransaction hg))

theorem EndsInSegment.stop {h g : List BusEvent} (hh : EndsInSegment h g) (hg : Segment g) :
    CompleteTransactions (h ++ [.stop]) := by
  obtain ⟨g, hc, ho⟩ := hh
  simpa using CompleteTransactions.stop _ _ hc (ho.openTransaction hg)

theorem EndsInSegment.release {h g : List BusEvent} (hh : EndsInSegment h g) (hg : Segment g ∨ ReadingSegment g) :
    CompleteTransactions (h ++ [.release]) := by
  obtain ⟨g, hc, ho⟩ := hh
  rcases hg with hg | hg
  · simpa using CompleteTransactions.release _ _ hc (ho.openTransaction hg)
  · simpa using CompleteTransactions.releaseReading _ _ hc (ho.readingTransaction hg)

theorem EndsInSegment.grammatical {h g : List BusEvent} (hh : EndsInSegment h g)
    (hg : Segment g ∨ ReadingSegment g) : GrammaticalHistory h := by
  obtain ⟨g, hc, ho⟩ := hh
  exact .inr ⟨_, _, rfl, hc, hg.imp ho.openTransaction ho.readingTransaction⟩

/-- The segments the bus may be in the middle of in an owned phase. -/
inductive Phase.SegmentSoFar : Phase → List BusEvent → Prop
  | started : SegmentSoFar .started []
  | addrNack (b : Byte) : SegmentSoFar .addrNack [.addr b false]
  | mt (b : Byte) (ws : List BusEvent) (hb : addrIsRead b = false) (hws : ∀ e ∈ ws, ∃ v a, e = .write v a) :
      SegmentSoFar .mt (.addr b true :: ws)
  | mr (b : Byte) (rs : List BusEvent) (hb : addrIsRead b = true) (hrs : ∀ e ∈ rs, ∃ u, e = .read u true) :
      SegmentSoFar .mr (.addr b true :: rs)
  | mrEnd (b : Byte) (rs : List BusEvent) (v : Byte) (hb : addrIsRead b = true)
      (hrs : ∀ e ∈ rs, ∃ u, e = .read u true) : SegmentSoFar .mrEnd (.addr b true :: (rs ++ [.read v false]))

theorem Phase.SegmentSoFar.segment {p : Phase} {g : List BusEvent} (h : p.SegmentSoFar g) (hm : p ≠ .mr) :
    Segment g := by
  cases h with
  | started => exact .empty
  | addrNack b => exact .nack b
  | mt b ws hb hws => exact .writes b ws hb hws
  | mr => exact absurd rfl hm
  | mrEnd b rs v hb hrs => exact .reads b rs v hb hrs

theorem Phase.SegmentSoFar.segment_or_reading {p : Phase} {g : List BusEvent} (h : p.SegmentSoFar g) :
    Segment g ∨ ReadingSegment g := by
  by_cases hm : p = .mr
  · subst hm
    cases h with
    | mr b rs hb hrs => exact .inr (.reads b rs hb hrs)
  · exact .inl (h.segment hm)

theorem Phase.SegmentSoFar.addr (b : Byte) (a : Bool) :
    (addrPhase (addrIsRead b) a).SegmentSoFar [.addr b a] := by
  cases a with
  | false => exact .addrNack b
  | true =>
    cases hb : addrIsRead b with
    | false => exact .mt b [] hb nofun
    | true => exact .mr b [] hb nofun

theorem Phase.SegmentSoFar.write {g : List BusEvent} (h : Phase.mt.SegmentSoFar g) (v : Byte) (a : Bool) :
    Phase.mt.SegmentSoFar (g ++ [.write v a]) := by
  cases h with
  | mt b ws hb hws =>
    exact .mt b _ hb (List.forall_mem_append.mpr ⟨hws, List.forall_mem_singleton.mpr ⟨v, a, rfl⟩⟩)

theorem Phase.SegmentSoFar.read {g : List BusEvent} (h : Phase.mr.SegmentSoFar g) (v : Byte) (k : Bool) :
    (recvPhase k).SegmentSoFar (g ++ [.read v k]) := by
  cases h with
  | mr b rs hb hrs =>
    cases k with
    | false => exact .mrEnd b rs v hb hrs
    | true => exact .mr b _ hb (List.forall_mem_append.mpr ⟨hrs, List.forall_mem_singleton.mpr ⟨v, rfl⟩⟩)

/-- What a history says of the phase it ends in: an idle bus has completed its transactions, and an owned one is in
the middle of a segment of its phase. -/
inductive Phase.Explains : Phase → List BusEvent → Prop
  | idle {h : List BusEvent} (hc : CompleteTransactions h) : Explains .idle h
  | owned {p : Phase} {h g : List BusEvent} (hg : p.SegmentSoFar g) (hh : EndsInSegment h g) : Explains p h

theorem Phase.Explains.segment {p : Phase} {h : List BusEvent} (hp : p.Explains h) (hi : p ≠ .idle) :
    ∃ g, p.SegmentSoFar g ∧ EndsInSegment h g := by
  cases hp with
  | idle => exact absurd rfl hi
  | owned hg hh => exact ⟨_, hg, hh⟩

theorem Phase.Explains.complete {h : List BusEvent} (hp : Phase.idle.Explains h) : CompleteTransactions h := by
  cases hp with
  | idle hc => exact hc
  | owned hg => cases hg

theorem Phase.Explains.grammatical {p : Phase} {h : List BusEvent} (hp : p.Explains h) : GrammaticalHistory h := by
  cases hp with
  | idle hc => exact .inl hc
  | owned hg hh => exact hh.grammatical hg.segment_or_reading

/-- Each transition of the phase machine is a step of the grammar. -/
theorem Phase.Explains.append {p q : Phase} {h : List BusEvent} {e : BusEvent} (hp : p.Explains h)
    (he : p.Transition e q) : q.Explains (h ++ [e]) := by
  cases he with
  | start => exact .owned .started (.intro [] hp.complete .start)
  | rstart hi hm =>
    obtain ⟨g, hg, hh⟩ := hp.segment hi
    exact .owned .started (hh.rstart (hg.segment hm))
  | addr b a =>
    obtain ⟨g, ⟨⟩, hh⟩ := hp.segment nofun
    exact .owned (.addr b a) (hh.append _)
  | write b a =>
    obtain ⟨g, hg, hh⟩ := hp.segment nofun
    exact .owned (hg.write b a) (hh.append _)
  | read v k =>
    obtain ⟨g, hg, hh⟩ := hp.segment nofun
    exact .owned (hg.read v k) (hh.append _)
  | stop hi hm =>
    obtain ⟨g, hg, hh⟩ := hp.segment hi
    exact .idle (hh.stop (hg.segment hm))
  | release hi =>
    obtain ⟨g, hg, hh⟩ := hp.segment hi
    exact .idle (hh.release hg.segment_or_reading)

theorem busPhase_explains {h : List BusEvent} {p : Phase} (hp : busPhase h = some p) : p.Explains h := by
  induction h using List.reverseRecOn generalizing p with
  | nil => cases hp; exact .idle .none
  | append_singleton h e ih =>
    rw [busPhase_append, Option.bind_eq_some_iff] at hp
    obtain ⟨q, hq, hqp⟩ := hp
    exact (ih hq).append (Phase.transition_of_after hqp)

/-- Settles O55: by induction over the history, with what each phase says of it. -/
theorem phaseMachineAcceptsOnlyTheGrammar : Obligations.PhaseMachineAcceptsOnlyTheGrammar := by
  intro h p hp
  have explained := busPhase_explains hp
  refine ⟨explained.grammatical, ?_⟩
  rintro rfl
  exact explained.complete

/-! ## What the agents keep, every run keeps -/

theorem KeptByAgents.run {P : State → Prop} (hP : KeptByAgents P) {n : Nat} {s t : State}
    (h : Sys2Proof.core.run n s = .next t) (hs : P s) : P t := by
  induction n generalizing s with
  | zero => cases h; exact hs
  | succ n ih =>
    obtain ⟨u, hu, ht⟩ := core_run_cases h
    exact ih ht (hP.step hu hs)

/-- Settles O56: every run keeps the phase readable off the history (R62, R83), and a readable history is
grammatical. -/
theorem busHistoriesAreGrammatical : Obligations.BusHistoriesAreGrammatical := by
  intro env host params agenda n t h
  have launched : (State.launch env host params agenda).BusAgrees := ⟨trivial, rfl⟩
  exact (phaseMachineAcceptsOnlyTheGrammar _ _ (busAgrees_keptByAgents.run h launched).2).1

end Sys2Proof.Machine

namespace Sys2Proof.Machine

/-! ## BUS_PROGRESS (R113) -/

/-- No access writes the agenda. -/
theorem exec_agenda {i : Instr} {s t : State} (h : exec i s = .next t) : t.agenda = s.agenda := by
  cases hi : i.isRead with
  | true => rw [exec_read hi] at h; cases h; rfl
  | false =>
    obtain ⟨-, -, -, -, hagenda⟩ := (exec_writeEffect hi h).surroundings
    exact hagenda

/-- The engine writes the TWI unit, the environment and the bus history only. -/
theorem engineStep_frame {ans : BusAnswer} {s t : State} (h : engineStep ans s = .next t) :
    t = { s with twi := t.twi, env := t.env, history := t.history } := by
  cases ho : s.twi.op with
  | none => rw [engineStep_idle ans ho] at h; cases h; rfl
  | start => rw [engineStep_start ans ho] at h; cases h; rfl
  | stop => rw [stopCompletion s ans ho] at h; cases h; rfl
  | sendAddr b => rw [engineStep_sendAddr ans ho] at h; cases h; rfl
  | sendData b => rw [engineStep_sendData ans ho] at h; cases h; rfl
  | recv k =>
    rw [engineStep_recv ans ho] at h
    obtain ⟨v, e, -, rfl⟩ := completeRecv_cases h
    rfl

/-- No move writes the agenda: a step only takes its own move away. -/
theorem runMove_agenda {m : Move} {s t : State} (h : runMove m s = .next t) : t.agenda = s.agenda := by
  rcases runMove_cases h with ⟨u, hu, ht⟩ | ⟨ans, -, h⟩ | ⟨-, rfl⟩ | ⟨-, h⟩ | ⟨x, y, z, -, rfl⟩
  · have hagenda : t.agenda = u.agenda := by rw [ht]
    rcases hu with rfl | ⟨i, hi⟩
    · exact hagenda
    · exact hagenda.trans (exec_agenda hi)
  · rw [engineStep_frame h]
  · rw [timerStep_eq]
  · rcases takeTick_cases h with ⟨-, rfl⟩ | ⟨-, p, -, rfl⟩ <;> rfl
  · rfl

/-- Which access a move makes does not depend on the moves still to come. -/
theorem Move.disables_agenda {m : Move} {s : State} (a : List Move) :
    m.Disables { s with agenda := a } ↔ m.Disables s := by
  cases m <;> exact Iff.rfl

/-- A TWI_DISABLE takes away whatever operation is in flight (R68). -/
theorem runMove_disables_op {m : Move} {s t : State} (hd : m.Disables s) (h : runMove m s = .next t) :
    t.twi.op = .none := by
  obtain ⟨w, d, hw, hdec⟩ := hd
  rcases runMove_access h with ⟨u, hu, ht⟩ | ⟨ans, rfl, -⟩ | ⟨rfl, -⟩ | ⟨rfl, -⟩ | ⟨x, y, z, rfl, -⟩
  · rw [ht]
    rcases hu with ⟨hn, -⟩ | ⟨v, i, hv, hi, hx⟩
    · cases hw.symm.trans hn
    · cases hw.symm.trans hv
      cases hdec.symm.trans hi
      cases hx
      rfl
  all_goals cases hw

/-- The TWI unit `u` is `t` with the operation in flight where it was: all but WC and TWI_BR is as in `t`. -/
def Twi.SameFlight (t u : Twi) : Prop := u = { t with wc := u.wc, br := u.br }

theorem Twi.SameFlight.refl (t : Twi) : t.SameFlight t := rfl

theorem Twi.SameFlight.op {t u : Twi} (h : t.SameFlight u) : u.op = t.op := by rw [h]

theorem Twi.SameFlight.trans {t u v : Twi} (h : t.SameFlight u) (h' : u.SameFlight v) : t.SameFlight v := by
  rw [Twi.SameFlight, h', h]

theorem Twi.SameFlight.quiet {t u : Twi} (h : t.SameFlight u) (hq : t.FlightQuiet) (ho : t.op ≠ .none) :
    u.int = false ∧ u.status = statusNoInfo := by
  rw [h]
  exact hq ho

/-- The moves that end an operation in flight: the engine's, and a TWI_DISABLE. -/
def Move.EndsOperation (m : Move) (s : State) : Prop := (∃ ans, m = .twiEngine ans) ∨ m.Disables s

theorem Move.endsOperation_of_isEngine {m : Move} (he : m.isEngine = true) (s : State) : m.EndsOperation s := by
  cases m with
  | twiEngine ans => exact .inl ⟨ans, rfl⟩
  | _ => cases he

theorem Move.endsOperation_agenda {m : Move} {s : State} (a : List Move) :
    m.EndsOperation { s with agenda := a } ↔ m.EndsOperation s := or_congr Iff.rfl (Move.disables_agenda a)

theorem step_agenda {s t : State} {m : Move} {rest : List Move} (ha : s.agenda = m :: rest) (h : step s = .next t) :
    t.agenda = rest := by
  rw [step_of_legal (step_cases h).1 ha] at h
  exact runMove_agenda h

theorem step_in_flight {s t : State} {m : Move} {rest : List Move} (ha : s.agenda = m :: rest)
    (he : m.isEngine = false) (hd : ¬m.Disables s) (ho : s.twi.op ≠ .none) (h : step s = .next t) :
    s.twi.SameFlight t.twi := by
  rw [step_of_legal (step_cases h).1 ha] at h
  rw [← Move.disables_agenda rest] at hd
  exact runMove_in_flight (s := { s with agenda := rest }) ho he hd h

/-- A step whose move ends the operation in flight leaves none. -/
theorem step_endsOperation {s t : State} {m : Move} {rest : List Move} (ha : s.agenda = m :: rest)
    (hm : m.EndsOperation s) (h : step s = .next t) : t.twi.op = .none := by
  rw [step_of_legal (step_cases h).1 ha] at h
  rcases hm with ⟨ans, rfl⟩ | hd
  · exact engineStep_op h
  · exact runMove_disables_op ((Move.disables_agenda rest).mpr hd) h

/-! ### A finite run up to the engine's move -/

/-- A run, one step further. -/
theorem core_run_succ {s t u : State} {n : Nat} (h : Sys2Proof.core.run n s = .next u) (hu : step u = .next t) :
    Sys2Proof.core.run (n + 1) s = .next t := by
  induction n generalizing s with
  | zero => cases h; exact core_run_of_step hu 0
  | succ n ih =>
    obtain ⟨v, hv, hr⟩ := core_run_cases h
    rw [core_run_of_step hv]
    exact ih hr

/-- Within the next n steps of a run from s, no move is a TWI_DISABLE. -/
def State.NoDisableWithin (s : State) (n : Nat) : Prop :=
  ∀ (k : Nat) (u : State) (m : Move) (later : List Move), k < n →
    Sys2Proof.core.run k s = .next u → u.agenda = m :: later → ¬m.Disables u

theorem State.NoDisableWithin.head {s : State} {n : Nat} {m : Move} {rest : List Move}
    (h : s.NoDisableWithin (n + 1)) (ha : s.agenda = m :: rest) : ¬m.Disables s := h 0 s m rest n.succ_pos rfl ha

theorem State.NoDisableWithin.tail {s u : State} {n : Nat} (h : s.NoDisableWithin (n + 1)) (hu : step s = .next u) :
    u.NoDisableWithin n := by
  intro k v m later hk hr
  exact h (k + 1) v m later (Nat.succ_lt_succ hk) ((core_run_of_step hu k).trans hr)

/-- A run through the first moves of its agenda leaves the others. -/
theorem run_agenda {pre rest : List Move} {s u : State} (ha : s.agenda = pre ++ rest)
    (h : Sys2Proof.core.run pre.length s = .next u) : u.agenda = rest := by
  induction pre generalizing s with
  | nil => cases h; exact ha
  | cons m pre ih =>
    obtain ⟨v, hv, hr⟩ := core_run_cases h
    exact ih (step_agenda ha hv) hr

/-- Moves that are neither the engine's nor a TWI_DISABLE leave the operation in flight. -/
theorem run_in_flight {pre rest : List Move} {s u : State} (ha : s.agenda = pre ++ rest) (ho : s.twi.op ≠ .none)
    (he : ∀ m ∈ pre, m.isEngine = false) (hn : s.NoDisableWithin pre.length)
    (h : Sys2Proof.core.run pre.length s = .next u) : s.twi.SameFlight u.twi := by
  induction pre generalizing s with
  | nil => cases h; exact .refl _
  | cons m pre ih =>
    obtain ⟨v, hv, hr⟩ := core_run_cases h
    obtain ⟨hm, hpre⟩ := List.forall_mem_cons.mp he
    have first := step_in_flight ha hm (hn.head ha) ho hv
    exact first.trans (ih (step_agenda ha hv) (by rwa [first.op]) hpre (hn.tail hv) hr)

/-- Background moves leave the TWI unit alone. -/
theorem run_background {pre rest : List Move} {s u : State} (ha : s.agenda = pre ++ rest)
    (hb : ∀ m ∈ pre, m.isBackground = true) (h : Sys2Proof.core.run pre.length s = .next u) : u.twi = s.twi := by
  induction pre generalizing s with
  | nil => cases h; rfl
  | cons m pre ih =>
    obtain ⟨v, hv, hr⟩ := core_run_cases h
    obtain ⟨hm, hpre⟩ := List.forall_mem_cons.mp hb
    have hv' := hv
    rw [step_of_legal (step_cases hv).1 ha] at hv'
    exact (ih (step_agenda ha hv) hpre hr).trans (runMove_background (s := { s with agenda := pre ++ rest }) hm hv')

/-- The moves that never stop a run: background moves, and words that spell an access. -/
def Move.Proceeds (m : Move) : Prop := m.isBackground = true ∨ ∃ w i, m = .host (.word w) ∧ decode w = .ok i

theorem Move.isInternal_of_isBackground {m : Move} (h : m.isBackground = true) : m.isInternal = true := by
  cases m with
  | host r => cases h
  | script p => cases h
  | _ => rfl

theorem runMove_proceeds {m : Move} {s : State} (hm : m.Proceeds) (hl : s.Legal) : ∃ t, runMove m s = .next t := by
  rcases hm with hb | ⟨w, i, rfl, hd⟩
  · exact runMove_internal_next (Move.isInternal_of_isBackground hb) hl
  · obtain ⟨t, ht⟩ := exec_next i s
    exact ⟨t, (hostWord_of_decode hd s).trans ht⟩

theorem run_proceeds {pre rest : List Move} {s : State} (hl : s.Legal) (ha : s.agenda = pre ++ rest)
    (hp : ∀ m ∈ pre, m.Proceeds) : ∃ u, Sys2Proof.core.run pre.length s = .next u := by
  induction pre generalizing s with
  | nil => exact ⟨s, rfl⟩
  | cons m pre ih =>
    obtain ⟨hm, hpre⟩ := List.forall_mem_cons.mp hp
    obtain ⟨t, ht⟩ := runMove_proceeds (s := { s with agenda := pre ++ rest }) hm hl
    have hstep : step s = .next t := (step_of_legal hl ha).trans ht
    obtain ⟨u, hu⟩ := ih (stepKeepsLegality s t hstep) (step_agenda ha hstep) hpre
    exact ⟨u, (core_run_of_step hstep _).trans hu⟩

/-- A legal state whose next move is the engine's takes it, and it completes what is in flight. -/
theorem step_engine {s : State} {ans : BusAnswer} {rest : List Move} (hl : s.Legal)
    (ha : s.agenda = .twiEngine ans :: rest) : ∃ t, step s = .next t ∧ t.twi.op = .none ∧ t.agenda = rest := by
  obtain ⟨t, ht⟩ := runMove_internal_next (m := .twiEngine ans) (s := { s with agenda := rest }) rfl hl
  have hstep : step s = .next t := (step_of_legal hl ha).trans ht
  exact ⟨t, hstep, step_endsOperation ha (.inl ⟨ans, rfl⟩) hstep, step_agenda ha hstep⟩

/-- Settles O57: no move before the engine's ends the operation, and the engine's does. -/
theorem operationCompletesUnderBusProgress : Obligations.OperationCompletesUnderBusProgress := by
  intro s ans pre rest hl ho ha hengine hdis
  refine ⟨⟨ans, by simp [ha]⟩, fun u hu => ?_, run_proceeds hl ha⟩
  have same := run_in_flight ha ho hengine hdis hu
  have hquiet : s.twi.FlightQuiet := hl.1
  obtain ⟨hint, hstatus⟩ := same.quiet hquiet ho
  obtain ⟨t, ht, hop, hagenda⟩ := step_engine (legal_keptByAgents.run hu hl) (run_agenda ha hu)
  exact ⟨same, hint, hstatus, fun hb => run_background ha hb hu, t, core_run_succ hu ht, hop, hagenda⟩

/-! ### A run without end -/

section
variable {r : Nat → State} {moves : Nat → Move}

theorem IsRun.legal (h : IsRun r moves) (n : Nat) : (r n).Legal := (step_cases (h n)).1

/-- An operation in flight stays so until a move ends it. -/
theorem IsRun.in_flight (h : IsRun r moves) {n m : Nat} (hnm : n ≤ m) (ho : (r n).twi.op ≠ .none)
    (hq : ∀ k, n ≤ k → k < m → ¬(moves k).EndsOperation (r k)) : (r n).twi.SameFlight (r m).twi := by
  induction m, hnm using Nat.le_induction with
  | base => exact .refl _
  | succ m hnm ih =>
    have before := ih fun k hk hkm => hq k hk (Nat.lt_succ_of_lt hkm)
    have hm := hq m hnm m.lt_succ_self
    have he : (moves m).isEngine = false := Bool.eq_false_iff.mpr fun he => hm (Move.endsOperation_of_isEngine he _)
    exact before.trans (step_in_flight (s := { r m with agenda := [moves m] }) rfl he
      (fun hd => hm (.inr ((Move.disables_agenda _).mp hd))) (by rwa [before.op]) (h m))

/-- Under BUS_PROGRESS some later move ends an operation in flight. -/
theorem IsRun.exists_end (h : IsRun r moves) (hp : BusProgress r moves) {n : Nat} (ho : (r n).twi.op ≠ .none) :
    ∃ m, n ≤ m ∧ (moves m).EndsOperation (r m) := by
  by_contra hno
  have hq : ∀ k, n ≤ k → ¬(moves k).EndsOperation (r k) := fun k hk he => hno ⟨k, hk, he⟩
  obtain ⟨m, hnm, hnone | hengine⟩ := hp n
  · exact ho ((h.in_flight hnm ho fun k hk _ => hq k hk).op ▸ hnone)
  · exact hq m hnm (.inl hengine)

end

/-- Settles O60: the first move that ends an operation ends the one in flight. -/
theorem everyOperationEndsUnderBusProgress : Obligations.EveryOperationEndsUnderBusProgress := by
  classical
  intro r moves h hp n ho
  have hex := h.exists_end hp ho
  obtain ⟨hnm, hend⟩ := Nat.find_spec hex
  have quiet : ∀ k, n ≤ k → k < Nat.find hex → ¬(moves k).EndsOperation (r k) :=
    fun k hk hlt he => Nat.find_min hex hlt ⟨hk, he⟩
  have done := step_endsOperation (s := { r _ with agenda := [moves _] }) rfl ((Move.endsOperation_agenda _).mpr hend)
    (h _)
  refine ⟨Nat.find hex, hnm, done, hend, fun k hk hkm => ?_⟩
  have same := h.in_flight hk ho fun j hj hjk => quiet j hj (hjk.trans_le hkm)
  obtain ⟨hquiet, -⟩ := h.legal n
  obtain ⟨hint, hstatus⟩ := same.quiet hquiet ho
  exact ⟨same.op, hint, hstatus⟩

end Sys2Proof.Machine

namespace Sys2Proof

/-! # The display unit (spec/41_display.md)

What one service step makes of a state is said once, and so is what every other step leaves alone: the output lines, the
cursor and the pin record. The statements about the lines are read off these two. -/

open Machine (regDigit)

/-! ## The words of the digit rows (R52) -/

/-- The two lowest bits of the OFF field, which name a digit slot, are bits 9:8 of the word. -/
theorem fieldOff_slot (w : Word) : (fieldOff w).extractLsb' 0 2 = w.extractLsb' 8 2 := by
  ext i hi
  simp [fieldOff, show i < 4 by omega]

theorem Offset.eq_regDigit {off : Offset} (h : off &&& 0xC = 0x4) : off = regDigit (off.extractLsb' 0 2) := by
  revert off; decide

/-- A row whose mask looks at the two highest bits of OFF and whose pattern has 01 there names a digit slot. -/
theorem fieldOff_of_digitRow {w p m : Word} (h : w &&& m = p) (hm : fieldOff m = 0xC) (hp : fieldOff p = 0x4) :
    fieldOff w = regDigit (w.extractLsb' 8 2) := by
  have hoff : fieldOff w &&& 0xC = 0x4 := by rw [← hm, ← fieldOff_and, h, hp]
  rw [Offset.eq_regDigit hoff, fieldOff_slot]

theorem dispDigitWr_spelled : SpelledBy 0x8400 0xFC00 (fun w => .dispDigitWr (w.extractLsb' 8 2) (fieldData w)) := by
  intro w h
  rw [decode_of_write (and_of_and_mask 0xF000 h), fieldOff_of_digitRow h rfl rfl, decodeWrite_regDigit]

theorem dispDigitRd_spelled : SpelledBy 0x0400 0xFCFF (fun w => .dispDigitRd (w.extractLsb' 8 2)) := by
  intro w h
  rw [decode_of_read (and_of_and_mask 0xF0FF h), fieldOff_of_digitRow h rfl rfl, decodeRead_regDigit]

end Sys2Proof

namespace Sys2Proof.Machine

/-! ## What every step but a service leaves alone (R22, R96) -/

/-- States `s` and `t` agree on what a service step drives: the cursor, the output lines and their record. -/
structure State.SameLines (s t : State) : Prop where
  cursor : t.disp.cursor = s.disp.cursor
  sel : t.disp.sel = s.disp.sel
  seg : t.disp.seg = s.disp.seg
  pinLog : t.pinLog = s.pinLog

/-- No access writes the record of the lines. -/
theorem exec_pinLog {i : Instr} {s t : State} (h : exec i s = .next t) : t.pinLog = s.pinLog := by
  cases hi : i.isRead with
  | true => rw [exec_read hi] at h; cases h; rfl
  | false =>
    obtain ⟨-, hpin, -⟩ := (exec_writeEffect hi h).surroundings
    exact hpin

/-- An access writes the digit buffer and DERR of the display unit only. -/
theorem exec_disp_frame {i : Instr} {s t : State} (h : exec i s = .next t) :
    t.disp = { s.disp with digit := t.disp.digit, derr := t.disp.derr } := by
  rcases exec_disp_cases h with e | ⟨n, d, -, e⟩ | ⟨b, e⟩ <;> rw [e]
  rfl

theorem exec_sameLines {i : Instr} {s t : State} (h : exec i s = .next t) : s.SameLines t := by
  have frame := exec_disp_frame h
  exact ⟨by rw [frame], by rw [frame], by rw [frame], exec_pinLog h⟩

/-- A move leaves the lines alone, or it takes a pending tick. -/
theorem runMove_lines {m : Move} {s t : State} (h : runMove m s = .next t) :
    s.SameLines t ∨ (m = .display ∧ s.tmr.TickPending ∧ takeTick s = .next t) := by
  rcases runMove_cases h with ⟨u, hu, ht⟩ | ⟨ans, -, h⟩ | ⟨-, rfl⟩ | ⟨hm, h⟩ | ⟨x, y, z, -, rfl⟩
  · left
    rw [ht]
    rcases hu with rfl | ⟨i, hi⟩
    · exact ⟨rfl, rfl, rfl, rfl⟩
    · obtain ⟨hcursor, hsel, hseg, hpin⟩ := exec_sameLines hi
      exact ⟨hcursor, hsel, hseg, hpin⟩
  · left
    rw [engineStep_frame h]
    exact ⟨rfl, rfl, rfl, rfl⟩
  · left
    rw [timerStep_eq]
    exact ⟨rfl, rfl, rfl, rfl⟩
  · by_cases hp : s.tmr.TickPending
    · exact .inr ⟨hm, hp, h⟩
    · rw [takeTick, if_neg hp] at h
      cases h
      exact .inl ⟨rfl, rfl, rfl, rfl⟩
  · exact .inl ⟨rfl, rfl, rfl, rfl⟩

/-- A step leaves the lines alone, or its move is a service that takes a pending tick. -/
theorem step_lines {s t : State} (h : step s = .next t) :
    s.SameLines t ∨
    ∃ rest, s.agenda = .display :: rest ∧ s.tmr.TickPending ∧ takeTick { s with agenda := rest } = .next t := by
  obtain ⟨-, ⟨-, rfl⟩ | ⟨m, rest, ha, hm⟩⟩ := step_cases h
  · exact .inl ⟨rfl, rfl, rfl, rfl⟩
  · rcases runMove_lines hm with ⟨hcursor, hsel, hseg, hpin⟩ | ⟨rfl, hp, ht⟩
    · exact .inl ⟨hcursor, hsel, hseg, hpin⟩
    · exact .inr ⟨rest, ha, hp, ht⟩

/-- Settles O48: the two writes decode to accesses that do nothing, and only a taken tick moves the lines. -/
theorem onlyServiceMovesTheLines : Obligations.OnlyServiceMovesTheLines := by
  refine ⟨fun _ h => decode_of_writeRow h rfl rfl rfl, fun _ h => decode_of_writeRow h rfl rfl rfl,
    fun _ _ => ⟨rfl, rfl⟩, fun s t h hmoved => ?_⟩
  rcases step_lines h with ⟨hcursor, hsel, hseg, -⟩ | ⟨rest, ha, ⟨hovf, htie⟩, -⟩
  · rcases hmoved with hne | hne | hne
    · exact absurd hcursor hne
    · exact absurd hsel hne
    · exact absurd hseg hne
  · exact ⟨rest, ha, hovf, htie⟩

/-! ## The service step (R98, R99, R100) -/

/-- The state after a service step that drives pattern `p` at the cursor's position (R98, R99). -/
def State.serviced (s : State) (p : Byte) : State :=
  { s with
    disp := { s.disp with
      sel := selectLine s.disp.cursor, seg := withPoint s.disp.cursor p, cursor := s.disp.cursor + 1 }
    tmr := { s.tmr with ovf := false }
    pinLog := s.pinLog ++
      [⟨s.disp.sel, 0x00⟩, ⟨selectLine s.disp.cursor, 0x00⟩,
       ⟨selectLine s.disp.cursor, withPoint s.disp.cursor p⟩] }

/-- A pending tick is taken with the pattern of the cursor's slot. -/
theorem takeTick_pending {s : State} {p : Byte} (hp : s.tmr.TickPending)
    (hr : render s.params.font (s.disp.slot s.disp.cursor) = some p) : takeTick s = .next (s.serviced p) := by
  unfold takeTick
  rw [if_pos hp, hr]
  rfl

theorem takeTick_serviced {s t : State} (hp : s.tmr.TickPending) (h : takeTick s = .next t) :
    ∃ p, render s.params.font (s.disp.slot s.disp.cursor) = some p ∧ t = s.serviced p := by
  rcases takeTick_cases h with ⟨hn, -⟩ | ⟨-, served⟩
  · exact absurd hp hn
  · exact served

/-- The cursor advances modulo 4. -/
theorem Slot.toNat_succ (c : Slot) : (c + 1).toNat = (c.toNat + 1) % 4 := by
  revert c; decide

/-- Settles O33: a legal slot has a pattern to drive. -/
theorem serviceStepDrivesCursor : Obligations.ServiceStepDrivesCursor := by
  rintro s ⟨-, -, hslots, -⟩
  refine ⟨fun hn => if_neg hn, fun hovf htie => ?_⟩
  obtain ⟨p, hr, -⟩ := render_of_legal s.params.font (Display.slot_legal hslots s.disp.cursor)
  have ht := takeTick_pending ⟨hovf, htie⟩ hr
  exact ⟨p, s.serviced p, hr, ht, selectLine_toNat _, rfl, Slot.toNat_succ _, rfl, rfl, rfl, rfl,
    fun x => takeTick_twi_env x s.env ht⟩

/-- Settles O34: the record of a service holds the lines in the order of R99. -/
theorem servicePinOrder : Obligations.ServicePinOrder := by
  intro s t hovf htie h
  obtain ⟨p, -, rfl⟩ := takeTick_serviced ⟨hovf, htie⟩ h
  rfl

/-- The decoder leaves the decimal point clear (R89). -/
theorem render_point {font : Vector Glyph 16} {x p : Byte} (h : render font x = some p) : p.getLsbD 7 = false := by
  unfold render at h
  split at h
  · cases h; simp
  split at h
  · cases h; rfl
  split at h
  · cases h; rfl
  · cases h

/-- A pattern without the point is driven with it at position 1 only (R98 step 4). -/
theorem withPoint_point {c : Slot} {p : Byte} (hp : p.getLsbD 7 = false) :
    (withPoint c p).getLsbD 7 = true ↔ c = 1 := by
  unfold withPoint
  split
  next hc => exact iff_of_true (by simp) hc
  next hc => exact iff_of_false (Bool.eq_false_iff.mp hp) hc

/-- Settles O35: the decoder leaves the point clear, and the service lights it at position 1. -/
theorem decimalPointOnlyAtPositionOne : Obligations.DecimalPointOnlyAtPositionOne := by
  intro s t hovf htie h
  obtain ⟨p, hr, rfl⟩ := takeTick_serviced ⟨hovf, htie⟩ h
  exact withPoint_point (render_point hr)

/-! ## The order of the positions (R101) -/

/-- `n` service steps have been taken, and the k-th of them, counted from 0, drove position k mod 4. -/
structure State.ServedInTurn (s : State) (n : Nat) : Prop where
  length : s.pinLog.length = 3 * n
  cursor : s.disp.cursor.toNat = n % 4
  positions : ∀ (k : Nat) (l : Lines), s.pinLog[3 * k + 2]? = some l → l.sel.toNat = 2 ^ (k % 4)

theorem State.SameLines.servedInTurn {s t : State} (h : s.SameLines t) {n : Nat} (hs : s.ServedInTurn n) :
    t.ServedInTurn n := by
  obtain ⟨hlen, hcur, hpos⟩ := hs
  exact ⟨h.pinLog ▸ hlen, h.cursor ▸ hcur, h.pinLog ▸ hpos⟩

/-- The last of the three lines that a service appends to a record of 3n lines is entry 3n + 2. -/
theorem serviceEntry_append {log : List Lines} {a b c l : Lines} {n k : Nat} (hlen : log.length = 3 * n)
    (h : (log ++ [a, b, c])[3 * k + 2]? = some l) : log[3 * k + 2]? = some l ∨ (k = n ∧ l = c) := by
  rcases Nat.lt_trichotomy k n with hk | rfl | hk
  · rw [List.getElem?_append_left (by omega)] at h
    exact .inl h
  · rw [List.getElem?_append_right (by omega), hlen, Nat.add_sub_cancel_left] at h
    cases h
    exact .inr ⟨rfl, rfl⟩
  · have hlt := (List.getElem?_eq_some_iff.mp h).1
    simp only [List.length_append, hlen, List.length_cons, List.length_nil] at hlt
    omega

/-- The next service drives the cursor's position, which is its turn. -/
theorem State.ServedInTurn.serviced {s : State} {n : Nat} (hs : s.ServedInTurn n) (p : Byte) :
    (s.serviced p).ServedInTurn (n + 1) where
  length := by simp [State.serviced, hs.length]; omega
  cursor := by
    have advance : (s.serviced p).disp.cursor.toNat = (s.disp.cursor.toNat + 1) % 4 := Slot.toNat_succ _
    rw [advance, hs.cursor, Nat.mod_add_mod]
  positions k l hl := by
    rcases serviceEntry_append hs.length hl with hold | ⟨rfl, rfl⟩
    · exact hs.positions k l hold
    · rw [selectLine_toNat, hs.cursor]

/-- A step leaves the service record as it is, or adds a service in its turn. -/
theorem step_servedInTurn {s t : State} {n : Nat} (hs : s.ServedInTurn n) (h : step s = .next t) :
    t.ServedInTurn n ∨ t.ServedInTurn (n + 1) := by
  rcases step_lines h with same | ⟨rest, -, hp, ht⟩
  · exact .inl (same.servedInTurn hs)
  · obtain ⟨p, -, rfl⟩ := takeTick_serviced (s := { s with agenda := rest }) hp ht
    have hs' : ({ s with agenda := rest } : State).ServedInTurn n := ⟨hs.length, hs.cursor, hs.positions⟩
    exact .inr (hs'.serviced p)

/-- Settles O36: of all steps only a service writes the record and the cursor, and it is served in its turn. -/
theorem serviceStepsVisitPositionsInTurn : Obligations.ServiceStepsVisitPositionsInTurn := by
  intro s t n hlen hcur hpos h
  rcases step_servedInTurn ⟨hlen, hcur, hpos⟩ h with ⟨hlen', hcur', hpos'⟩ | ⟨hlen', hcur', hpos'⟩
  · exact ⟨n, .inl rfl, hlen', hcur', hpos'⟩
  · exact ⟨n + 1, .inr rfl, hlen', hcur', hpos'⟩

/-! ## The digit decoder (R87, R88, R89) -/

/-- A legal code is a digit 0x0..0xF, blank or minus (R87). -/
theorem legalCode_cases {x : Byte} (h : LegalCode x) : x.toNat < 16 ∨ x = 0x10 ∨ x = 0x11 := by
  revert x; decide

theorem render_digit (font : Vector Glyph 16) {x : Byte} (h : x.toNat < 16) :
    render font x = some ((font[x.toNat]).setWidth 8) := dif_pos h

/-- Settles O29: a digit shows its glyph, and the two codes above are shown without FONT. -/
theorem decoderTotalOnLegalCodes : Obligations.DecoderTotalOnLegalCodes := by
  refine ⟨by decide, fun font x hx => ?_⟩
  rcases legalCode_cases hx with hlt | rfl | rfl
  · have notAbove : ∀ c : Byte, 16 ≤ c.toNat → x ≠ c := fun c hc e => by rw [e] at hlt; omega
    have hr := render_digit font hlt
    exact ⟨_, hr, render_point hr, fun _ => BitVec.toNat_setWidth_of_le (by decide),
      fun e => absurd e (notAbove _ (by decide)), fun e => absurd e (notAbove _ (by decide))⟩
  · exact ⟨0x00, rfl, rfl, fun h => absurd h (by decide), fun _ => rfl, fun e => absurd e (by decide)⟩
  · exact ⟨0x40, rfl, rfl, fun h => absurd h (by decide), fun e => absurd e (by decide), fun _ => rfl⟩

/-! ## The display accesses (R90 to R95) -/

theorem exec_dispDigitWr_legal (n : Slot) {d : Byte} (h : LegalCode d) (s : State) :
    exec (.dispDigitWr n d) s = .next { s with disp := s.disp.setSlot n d } := by
  change execDispDigitWr n d s = _
  rw [execDispDigitWr, if_pos h]

theorem exec_dispDigitWr_illegal (n : Slot) {d : Byte} (h : ¬LegalCode d) (s : State) :
    exec (.dispDigitWr n d) s = .next { s with disp := { s.disp with derr := true } } := by
  change execDispDigitWr n d s = _
  rw [execDispDigitWr, if_neg h]

/-- Settles O30: the two cases of the code check. -/
theorem digitWriteChecked : Obligations.DigitWriteChecked := by
  refine ⟨dispDigitWr_spelled, fun n d s => ⟨fun hd => ?_, fun hd => ?_⟩⟩
  · exact exec_dispDigitWr_illegal n (BitVec.not_le.mpr hd) s
  · exact ⟨_, exec_dispDigitWr_legal n hd s, s.disp.slot_setSlot_same n d,
      fun m hm => s.disp.slot_setSlot_other d hm, rfl, rfl, rfl, rfl⟩

theorem w1c_written (flag : Bool) : w1c flag true = false := Bool.and_false flag

theorem w1c_not_written (flag : Bool) : w1c flag false = flag := Bool.and_true flag

theorem exec_dispStatusWr (d : Byte) (s : State) :
    exec (.dispStatusWr d) s = .next { s with disp := { s.disp with derr := w1c s.disp.derr (d.getLsbD 7) } } := rfl

/-- Settles O31: DERR is a write-1-to-clear flag, and nothing else is written. -/
theorem dispStatusWriteClearsDerr : Obligations.DispStatusWriteClearsDerr := by
  refine ⟨fun _ h => decode_of_writeRow h rfl rfl rfl, fun d s => ?_⟩
  rw [exec_dispStatusWr]
  constructor <;> intro hd
  · rw [hd, w1c_written]
  · rw [hd, w1c_not_written]

/-- DISP_STATUS reads as DERR in bit 7 and the cursor in bits 1:0 (R22). -/
theorem Display.statusValue_toNat (p : Display) :
    p.statusValue.toNat = 128 * p.derr.toNat + p.cursor.toNat := by
  unfold Display.statusValue
  generalize p.derr = a, p.cursor = c
  revert a c
  decide

/-- DISP_SEL reads as the four lines (R23). -/
theorem Display.selValue_toNat (p : Display) : p.selValue.toNat = p.sel.toNat :=
  BitVec.toNat_setWidth_of_le (by decide)

theorem exec_dispDigitRd (n : Slot) (s : State) : exec (.dispDigitRd n) s = .next (s.respond (s.disp.slot n)) := by
  rw [exec_read rfl, Instr.offset_of_readWord (off := regDigit n) rfl, s.readReg_regDigit]

/-- Settles O32: a read answers its register's read value. -/
theorem displayReadsReturnRegisters : Obligations.DisplayReadsReturnRegisters :=
  ⟨dispDigitRd_spelled, readWord_spelled 0x8, readWord_spelled 0x9, readWord_spelled 0xA,
    fun s => ⟨fun n => exec_dispDigitRd n s, ⟨_, exec_read rfl s, s.disp.statusValue_toNat⟩,
      ⟨_, exec_read rfl s, s.disp.selValue_toNat⟩, exec_read rfl s⟩⟩

end Sys2Proof.Machine

namespace Sys2Proof.Machine

/-! # The timer unit (spec/42_timer.md)

What a count makes of the timer is said once, and what happens to OVR on every move; the period of R111 is 256 counts
composed, and R110 is read off the moves that leave OVR clear. -/

/-! ## One count (R108) -/

theorem runMove_timer (s : State) : runMove .timer s = .next (timerStep s) := rfl

theorem timerStep_enabled {s : State} (h : s.tmr.Enabled) : timerStep s = { s with tmr := s.tmr.tick } := if_pos h

theorem timerStep_disabled {s : State} (h : ¬s.tmr.Enabled) : timerStep s = s := if_neg h

/-- With TIE = 0 no pending overflow stops the timer. -/
theorem Timer.enabled_of_masked {t : Timer} (hcs : t.cs ≠ 0) (htie : t.tie = false) : t.Enabled :=
  ⟨hcs, fun ⟨_, h⟩ => Bool.eq_false_iff.mp htie h⟩

/-- The counter counts up as long as it is not at its last value. -/
theorem Byte.toNat_succ {c : Byte} (h : c ≠ 0xFF) : (c + 1).toNat = c.toNat + 1 := by
  bv_omega

/-- Settles O40: the two ways to be stopped, and the two ways a count goes. -/
theorem timerStepCounts : Obligations.TimerStepCounts := by
  refine fun s => ⟨fun stopped => ?_, fun hcs hfree => ⟨fun hc => ?_, fun hc => ?_⟩⟩ <;> rw [runMove_timer]
  · have hdis : ¬s.tmr.Enabled := fun ⟨hcs, hfree⟩ => stopped.elim hcs hfree
    rw [timerStep_disabled hdis]
  · rw [timerStep_enabled ⟨hcs, hfree⟩, Timer.tick_count hc]
    exact ⟨_, rfl, Byte.toNat_succ hc⟩
  · have hovr : (s.tmr.ovr || s.tmr.ovf) = if s.tmr.ovf then true else s.tmr.ovr := by
      cases s.tmr.ovf <;> simp
    rw [timerStep_enabled ⟨hcs, hfree⟩, Timer.tick_overflow hc, hovr]

/-! ## A period of 256 counts (R111) -/

/-- As long as the counter stays in its range, k counts add k to it and do nothing else. -/
theorem Timer.tick_iterate_below {t : Timer} {k : Nat} (h : t.count.toNat + k ≤ 255) :
    Timer.tick^[k] t = { t with count := t.count + BitVec.ofNat 8 k } := by
  induction k with
  | zero => simp
  | succ k ih =>
    have below : t.count + BitVec.ofNat 8 k ≠ 0xFF := by bv_omega
    rw [Function.iterate_succ_apply', ih (by omega), Timer.tick_count below, BitVec.ofNat_add, ← BitVec.add_assoc]
    rfl

/-- The counter reaches 0xFF, overflows once, and counts up to its value again. -/
theorem Timer.tick_iterate_period (t : Timer) :
    Timer.tick^[256] t = { t with ovf := true, ovr := t.ovr || t.ovf } := by
  have reach : Timer.tick^[255 - t.count.toNat] t = { t with count := 0xFF } := by
    have full : t.count + BitVec.ofNat 8 (255 - t.count.toNat) = 0xFF := by bv_omega
    rw [Timer.tick_iterate_below (by omega), full]
  have back : ∀ u : Timer, u.count = 0#8 → Timer.tick^[t.count.toNat] u = { u with count := t.count } := by
    intro u hu
    rw [Timer.tick_iterate_below (by rw [hu]; bv_omega), hu, BitVec.ofNat_toNat, BitVec.setWidth_eq, BitVec.zero_add]
  have period : 256 = t.count.toNat + 1 + (255 - t.count.toNat) := by omega
  rw [period, Function.iterate_add_apply, reach, Function.iterate_succ_apply, Timer.tick_overflow rfl, back _ rfl]

/-- Timer moves with TIE = 0 are counts, one after the other. -/
theorem run_masked_timer {s : State} {n : Nat} {rest : List Move} (hl : s.Legal) (hcs : s.tmr.cs ≠ 0)
    (htie : s.tmr.tie = false) (ha : s.agenda = List.replicate n .timer ++ rest) :
    Sys2Proof.core.run n s = .next { s with tmr := Timer.tick^[n] s.tmr, agenda := rest } := by
  induction n generalizing s with
  | zero => rw [← show s.agenda = rest from ha]; rfl
  | succ n ih =>
    have hstep : step s = .next { s with tmr := s.tmr.tick, agenda := List.replicate n .timer ++ rest } := by
      rw [step_of_legal hl ha]
      exact congrArg Host.Outcome.next (timerStep_enabled (Timer.enabled_of_masked (t := s.tmr) hcs htie))
    rw [core_run_of_step hstep, ih (stepKeepsLegality _ _ hstep) (by simpa using hcs) (by simpa using htie) rfl]
    rfl

/-- Settles O41: the 256 moves are 256 counts, which are one period. -/
theorem overflowPeriodIs256Steps : Obligations.OverflowPeriodIs256Steps := by
  intro s rest hl hcs htie ha
  rw [run_masked_timer hl hcs htie ha, Timer.tick_iterate_period]

/-! ## Lost ticks (R110) -/

theorem w1c_false (written : Bool) : w1c false written = false := Bool.false_and _

/-- No access raises OVR: a TMR_FLAGS write can only clear it. -/
theorem exec_ovr_clear {i : Instr} {s t : State} (h : exec i s = .next t) (hs : s.tmr.ovr = false) :
    t.tmr.ovr = false := by
  cases i
  case twiDisable d => cases h; simpa using hs
  case tmrCtrlWr d => cases h; split <;> exact hs
  case tmrFlagsWr d => cases h; rw [hs, w1c_false]
  all_goals cases h; exact hs

/-- A move leaves OVR clear, or it is the timer's. -/
theorem runMove_ovr_clear {m : Move} {s t : State} (h : runMove m s = .next t) (hs : s.tmr.ovr = false) :
    t.tmr.ovr = false ∨ (m = .timer ∧ t = timerStep s) := by
  rcases runMove_cases h with ⟨u, hu, ht⟩ | ⟨ans, -, h⟩ | timer | ⟨-, h⟩ | ⟨x, y, z, -, rfl⟩
  · have hovr : t.tmr.ovr = u.tmr.ovr := by rw [ht]
    rcases hu with rfl | ⟨i, hi⟩
    · exact .inl (hovr.trans hs)
    · exact .inl (hovr.trans (exec_ovr_clear hi hs))
  · left
    rw [engineStep_frame h]
    exact hs
  · exact .inr timer
  · left
    rcases takeTick_cases h with ⟨-, rfl⟩ | ⟨-, p, -, rfl⟩ <;> exact hs
  · exact .inl hs

theorem Timer.tick_raises_ovr {t : Timer} (hs : t.ovr = false) (ht : t.tick.ovr = true) :
    t.ovf = true ∧ t.count = 0xFF := by
  by_cases hc : t.count = 0xFF
  · rw [Timer.tick_overflow hc, hs, Bool.false_or] at ht
    exact ⟨ht, hc⟩
  · rw [Timer.tick_count hc] at ht
    exact absurd (hs.symm.trans ht) Bool.false_ne_true

/-- The timer raises OVR only as a masked overflow: with TIE = 1 a pending overflow stops it. -/
theorem timerStep_raises_ovr {s : State} (hs : s.tmr.ovr = false) (ht : (timerStep s).tmr.ovr = true) :
    s.tmr.tie = false ∧ s.tmr.ovf = true ∧ s.tmr.count = 0xFF := by
  by_cases hen : s.tmr.Enabled
  · rw [timerStep_enabled hen] at ht
    obtain ⟨hovf, hc⟩ := Timer.tick_raises_ovr hs ht
    obtain ⟨-, hfree⟩ := hen
    exact ⟨Bool.eq_false_iff.mpr fun htie => hfree ⟨hovf, htie⟩, hovf, hc⟩
  · rw [timerStep_disabled hen] at ht
    exact absurd (hs.symm.trans ht) Bool.false_ne_true

/-- Settles O42: of all moves only the timer's raises OVR, and only so. -/
theorem ticksLostOnlyWhileMasked : Obligations.TicksLostOnlyWhileMasked := by
  intro s t h hs ht
  obtain ⟨-, ⟨-, rfl⟩ | ⟨m, rest, ha, hm⟩⟩ := step_cases h
  · exact absurd (hs.symm.trans ht) Bool.false_ne_true
  · rcases runMove_ovr_clear hm hs with hclear | ⟨rfl, rfl⟩
    · exact absurd (hclear.symm.trans ht) Bool.false_ne_true
    · obtain ⟨htie, hovf, hc⟩ := timerStep_raises_ovr (s := { s with agenda := rest }) hs ht
      exact ⟨htie, hovf, hc, rest, ha⟩

/-! ## TMR_CTRL writes (R102) -/

theorem exec_tmrCtrlWr_locked (d : Byte) {s : State} (h : s.tmr.lock = true) :
    exec (.tmrCtrlWr d) s = .next { s with tmr := { s.tmr with tie := tmrTIE d } } := by
  change execTmrCtrlWr d s = _
  rw [execTmrCtrlWr, if_pos h]

theorem exec_tmrCtrlWr_unlocked (d : Byte) {s : State} (h : s.tmr.lock = false) :
    exec (.tmrCtrlWr d) s =
      .next { s with tmr := { s.tmr with tie := tmrTIE d, cs := tmrCS d, lock := tmrCS d != 0 } } := by
  change execTmrCtrlWr d s = _
  rw [execTmrCtrlWr, if_neg (Bool.eq_false_iff.mp h)]

/-- A TMR_CTRL write writes the timer only, stores TIE and leaves OVF, locked or not. -/
theorem exec_tmrCtrlWr_tie_ovf (d : Byte) (s : State) :
    ∃ c, exec (.tmrCtrlWr d) s = .next { s with tmr := c } ∧ c.tie = tmrTIE d ∧ c.ovf = s.tmr.ovf := by
  cases hlock : s.tmr.lock with
  | true => exact ⟨_, exec_tmrCtrlWr_locked d hlock, rfl, rfl⟩
  | false => exact ⟨_, exec_tmrCtrlWr_unlocked d hlock, rfl, rfl⟩

/-- CS is bits 2:0 of the written byte (R26). -/
theorem tmrCS_toNat (d : Byte) : (tmrCS d).toNat = d.toNat % 8 := by
  simp [tmrCS]

theorem tmrCS_bne_zero (d : Byte) : (tmrCS d != 0) = true ↔ d.toNat % 8 ≠ 0 := by
  rw [bne_iff_ne, ← tmrCS_toNat, ← BitVec.toNat_ne_iff_ne]
  rfl

/-- Settles O37: the two cases of LOCK. -/
theorem timerControlWriteLocks : Obligations.TimerControlWriteLocks :=
  ⟨fun _ h => decode_of_writeRow h rfl rfl rfl, fun d _ => ⟨exec_tmrCtrlWr_locked d, fun hlock =>
    ⟨_, exec_tmrCtrlWr_unlocked d hlock, rfl, tmrCS_toNat d, tmrCS_bne_zero d, rfl, rfl, rfl⟩⟩⟩

/-! ## A masked tick (R138) -/

theorem takeTick_not_pending {s : State} (h : ¬s.tmr.TickPending) : takeTick s = .next s := if_neg h

theorem Timer.tick_count_ne (t : Timer) : t.tick.count ≠ t.count := by
  by_cases hc : t.count = 0xFF
  · rw [Timer.tick_overflow hc, hc]; exact (by decide : (0x00 : Byte) ≠ 0xFF)
  · rw [Timer.tick_count hc]; intro h; bv_omega

theorem Timer.tick_keeps_ovf {t : Timer} (h : t.ovf = true) : t.tick.ovf = true := by
  by_cases hc : t.count = 0xFF
  · rw [Timer.tick_overflow hc]
  · rw [Timer.tick_count hc]; exact h

/-- The service of a pending tick acknowledges it and moves the cursor on. -/
theorem takeTick_pending_next {s : State} (hslots : s.disp.SlotsLegal) (hp : s.tmr.TickPending) :
    ∃ u, takeTick s = .next u ∧ u.tmr.ovf = false ∧ u.disp.cursor ≠ s.disp.cursor := by
  obtain ⟨u, hu⟩ := takeTick_next hslots
  obtain ⟨p, -, rfl⟩ := takeTick_serviced hp hu
  have moved : ∀ c : Slot, c + 1 ≠ c := by decide
  exact ⟨_, hu, rfl, moved _⟩

/-- Settles O43: with TIE = 0 no tick is pending for the service and the timer is enabled, and the write that sets TIE
makes the tick pending. -/
theorem maskedTickStaysPending : Obligations.MaskedTickStaysPending := by
  rintro s d ⟨-, -, hslots, -⟩ htie hovf
  refine ⟨takeTick_not_pending fun ⟨_, h⟩ => Bool.eq_false_iff.mp htie h, fun hcs => ?_, fun hd => ?_⟩
  · rw [runMove_timer, timerStep_enabled (Timer.enabled_of_masked hcs htie)]
    exact ⟨_, rfl, s.tmr.tick_count_ne, Timer.tick_keeps_ovf hovf⟩
  · obtain ⟨c, hc, hctie, hcovf⟩ := exec_tmrCtrlWr_tie_ovf d s
    obtain ⟨u, hu, hclear, hmoved⟩ :=
      takeTick_pending_next (s := { s with tmr := c }) hslots ⟨hcovf.trans hovf, hctie.trans hd⟩
    exact ⟨_, u, hc, hu, hclear, hmoved⟩

/-! ## TMR_FLAGS writes and the reads (R103, R104, R106, R107) -/

theorem w1c_eq_ite (flag written : Bool) : w1c flag written = if written then false else flag := by
  cases written
  · exact w1c_not_written flag
  · exact w1c_written flag

theorem exec_tmrFlagsWr (d : Byte) (s : State) :
    exec (.tmrFlagsWr d) s = .next { s with
      tmr := { s.tmr with ovf := w1c s.tmr.ovf (d.getLsbD 0), ovr := w1c s.tmr.ovr (d.getLsbD 1) } } := rfl

/-- Settles O38: OVF and OVR are write-1-to-clear flags, and nothing else is written. -/
theorem timerFlagsWriteOneToClear : Obligations.TimerFlagsWriteOneToClear := by
  refine ⟨fun _ h => decode_of_writeRow h rfl rfl rfl, fun d s => ?_⟩
  rw [exec_tmrFlagsWr, w1c_eq_ite, w1c_eq_ite]

/-- TMR_CTRL reads as TIE, LOCK and CS at their places (R26). -/
theorem Timer.ctrlValue_toNat (t : Timer) :
    t.ctrlValue.toNat = 128 * t.tie.toNat + 64 * t.lock.toNat + t.cs.toNat := by
  unfold Timer.ctrlValue
  generalize t.tie = a, t.lock = b, t.cs = c
  revert a b c
  decide

/-- TMR_FLAGS reads as OVR and OVF at their places (R28). -/
theorem Timer.flagsValue_toNat (t : Timer) : t.flagsValue.toNat = 2 * t.ovr.toNat + t.ovf.toNat := by
  unfold Timer.flagsValue
  generalize t.ovr = a, t.ovf = b
  revert a b
  decide

/-- Settles O39: a read answers its register's read value. -/
theorem timerReadsReturnRegisters : Obligations.TimerReadsReturnRegisters :=
  ⟨readWord_spelled 0xB, readWord_spelled 0xC, readWord_spelled 0xD,
    fun s => ⟨⟨_, exec_read rfl s, s.tmr.ctrlValue_toNat⟩, exec_read rfl s,
      ⟨_, exec_read rfl s, s.tmr.flagsValue_toNat⟩⟩⟩

end Sys2Proof.Machine

namespace Sys2Proof.Machine

/-! # The bus environment and the reference slave (spec/44_environment_and_host.md) -/

/-! ## The generic environment (R112, R114) -/

/-- Settles O26: the move's answer carries the wanted bit and byte. -/
theorem genericEnvironmentAnswersFreely : Obligations.GenericEnvironmentAnswersFreely :=
  fun _ _ a v => ⟨⟨a, v⟩, rfl, rfl, rfl, rfl, rfl, rfl⟩

/-! ## The reference slave's calls (R117 to R121) -/

theorem RtcSlave.onAddr_selected {r : RtcSlave} {b : Byte} (h : r.frame = .waitAddr ∧ addrSlave b = r.addr) :
    r.onAddr b = (true, { r with frame := if addrIsRead b then .rData else .wPtr }) := if_pos h

theorem RtcSlave.onAddr_not_selected {r : RtcSlave} {b : Byte} (h : ¬(r.frame = .waitAddr ∧ addrSlave b = r.addr)) :
    r.onAddr b = (false, { r with frame := .ignore }) := if_neg h

theorem RtcSlave.onWrite_wPtr {r : RtcSlave} (h : r.frame = .wPtr) (b : Byte) :
    r.onWrite b = (true, { r with ptr := b.toNat % r.regs.length, frame := .wData }) := by
  rw [RtcSlave.onWrite, h]

theorem RtcSlave.onWrite_wData {r : RtcSlave} (h : r.frame = .wData) (b : Byte) :
    r.onWrite b = (true, { r with regs := r.regs.set r.ptr b, ptr := (r.ptr + 1) % r.regs.length }) := by
  rw [RtcSlave.onWrite, h]

theorem RtcSlave.onWrite_not_writing {r : RtcSlave} (hp : r.frame ≠ .wPtr) (hd : r.frame ≠ .wData) (b : Byte) :
    r.onWrite b = (false, r) := by
  unfold RtcSlave.onWrite
  split
  case h_1 h => exact absurd h hp
  case h_2 h => exact absurd h hd
  all_goals rfl

theorem RtcSlave.onRead_rData {r : RtcSlave} {v : Byte} (h : r.frame = .rData) (hv : r.regs[r.ptr]? = some v)
    (k : Bool) :
    r.onRead k =
      some (v, { r with ptr := (r.ptr + 1) % r.regs.length, frame := if k then .rData else .ignore }) := by
  rw [RtcSlave.onRead, h, hv]

theorem RtcSlave.onRead_not_reading {r : RtcSlave} (h : r.frame ≠ .rData) (k : Bool) :
    r.onRead k = some (0xFF, r) := by
  unfold RtcSlave.onRead
  split
  case h_1 hf => exact absurd hf h
  all_goals rfl

theorem BusEnv.addr_rtc {r q : RtcSlave} {b : Byte} {a : Bool} (h : r.onAddr b = (a, q)) (ans : BusAnswer) :
    (BusEnv.rtc r).addr b ans = (a, .rtc q) := by
  rw [BusEnv.addr, h]

theorem BusEnv.write_rtc {r q : RtcSlave} {b : Byte} {a : Bool} (h : r.onWrite b = (a, q)) (ans : BusAnswer) :
    (BusEnv.rtc r).write b ans = (a, .rtc q) := by
  rw [BusEnv.write, h]

theorem BusEnv.read_rtc {r q : RtcSlave} {k : Bool} {v : Byte} (h : r.onRead k = some (v, q)) (ans : BusAnswer) :
    (BusEnv.rtc r).read k ans = some (v, .rtc q) := by
  rw [BusEnv.read, h]

/-- Settles O27: each call is the slave's, whose rule its framing state picks. -/
theorem referenceSlaveCalls : Obligations.ReferenceSlaveCalls := by
  intro r ans b k first _
  refine ⟨rfl, rfl, rfl, fun hf ha => ?_, fun h => ?_, fun h => ?_, fun h => ?_, fun hp hd => ?_,
    fun h v hv => ?_, fun h => ?_⟩
  · exact BusEnv.addr_rtc (RtcSlave.onAddr_selected ⟨hf, ha⟩) ans
  · exact BusEnv.addr_rtc (RtcSlave.onAddr_not_selected h) ans
  · exact BusEnv.write_rtc (RtcSlave.onWrite_wPtr h b) ans
  · exact BusEnv.write_rtc (RtcSlave.onWrite_wData h b) ans
  · exact BusEnv.write_rtc (RtcSlave.onWrite_not_writing hp hd b) ans
  · exact BusEnv.read_rtc (RtcSlave.onRead_rData h hv k) ans
  · exact BusEnv.read_rtc (RtcSlave.onRead_not_reading h k) ans

/-! ## A real RTC's clock (R122) -/

theorem runMove_rtcClock (x y z : Byte) (s : State) :
    runMove (.rtcClock x y z) s = .next { s with env := s.env.clock x y z } := rfl

theorem RtcSlave.running_eq {r : RtcSlave} {v : Byte} (h : r.regs[0]? = some v) : r.running = !v.getLsbD 7 := by
  rw [RtcSlave.running, h]

/-- A running slave's clock sets the three time registers to a BCD time; otherwise the slave stays as it was. -/
theorem BusEnv.clock_rtc_cases (r : RtcSlave) (x y z : Byte) :
    (r.running = true ∧ bcdTime x y z = true ∧
      (BusEnv.rtc r).clock x y z = .rtc { r with regs := ((r.regs.set 0 x).set 1 y).set 2 z }) ∨
    (¬(r.running = true ∧ bcdTime x y z = true) ∧ (BusEnv.rtc r).clock x y z = .rtc r) := by
  by_cases h : r.running = true ∧ bcdTime x y z = true
  · exact .inl ⟨h.1, h.2, if_pos h⟩
  · exact .inr ⟨h, if_neg h⟩

/-- Setting the three time registers leaves every other register alone. -/
theorem getElem?_set_timeRegisters_of_le (regs : List Byte) (x y z : Byte) {n : Nat} (hn : 3 ≤ n) :
    (((regs.set 0 x).set 1 y).set 2 z)[n]? = regs[n]? := by
  rw [List.getElem?_set_ne (by omega), List.getElem?_set_ne (by omega), List.getElem?_set_ne (by omega)]

/-- Where the three time registers exist they read as they were set. -/
theorem getElem?_set_timeRegisters {regs : List Byte} (x y z : Byte) (h : 3 ≤ regs.length) :
    (((regs.set 0 x).set 1 y).set 2 z)[0]? = some x ∧ (((regs.set 0 x).set 1 y).set 2 z)[1]? = some y ∧
    (((regs.set 0 x).set 1 y).set 2 z)[2]? = some z := by
  match regs, h with
  | _ :: _ :: _ :: _, _ => exact ⟨rfl, rfl, rfl⟩

/-- Settles O28, by the two cases of the clock: a halt flag or a time that is not BCD excludes the first, and their
absence the second. -/
theorem rtcClockChangesOnlyTimeRegisters : Obligations.RtcClockChangesOnlyTimeRegisters := by
  intro s x y z
  refine ⟨_, runMove_rtcClock x y z s, rfl, fun h => by simp only [h]; rfl, fun r h => ?_⟩
  simp only [h]
  rcases BusEnv.clock_rtc_cases r x y z with ⟨hrun, htime, hc⟩ | ⟨hstop, hc⟩
  · refine ⟨_, hc, rfl, rfl, rfl, by simp, fun n hn => getElem?_set_timeRegisters_of_le r.regs x y z hn,
      fun ht => ?_, ?_, fun hlen _ _ => getElem?_set_timeRegisters x y z hlen⟩
    · exact absurd htime (Bool.eq_false_iff.mp ht)
    · rintro ⟨v, hv, hhalt⟩
      rw [RtcSlave.running_eq hv, hhalt] at hrun
      cases hrun
  · refine ⟨r, hc, rfl, rfl, rfl, rfl, fun _ _ => rfl, fun _ => rfl, fun _ => rfl, ?_⟩
    rintro - htime ⟨v, hv, hclear⟩
    exact absurd ⟨by rw [RtcSlave.running_eq hv, hclear]; rfl, htime⟩ hstop

/-! ## BCD (R129) -/

/-- dec keeps the low digit and, without bit 7, weighs the tens digit. -/
theorem bcdDec_eq (x : Nat) : bcdDec x = x % 16 + x / 16 % 8 * 10 := by
  have low : x &&& 0x0F = x % 16 := Nat.and_two_pow_sub_one_eq_mod x 4
  have tens : (x >>> 4) &&& 0x07 = x / 16 % 8 := by
    rw [Nat.shiftRight_eq_div_pow]
    exact Nat.and_two_pow_sub_one_eq_mod (x / 16) 3
  rw [bcdDec, low, tens]

/-- The units digit fits in the four bits below the tens digit. -/
theorem bcdEnc_eq (v : Nat) : bcdEnc v = v / 10 * 16 + v % 10 := by
  have units : v % 10 < 2 ^ 4 := by omega
  rw [bcdEnc, ← Nat.shiftLeft_add_eq_or_of_lt units, Nat.shiftLeft_eq]

/-- Below 80 the tens digit fits in the three bits dec keeps. -/
theorem bcdDec_bcdEnc {v : Nat} (h : v < 80) : bcdDec (bcdEnc v) = v := by
  rw [bcdDec_eq, bcdEnc_eq]
  omega

/-- Settles O59, by the digits of dec and enc. -/
theorem bcdRoundTrip : Obligations.BcdRoundTrip :=
  ⟨fun v _ => bcdEnc_eq v, fun _ hv => bcdDec_bcdEnc hv, fun x => bcdDec_eq x.toNat⟩

end Sys2Proof.Machine

namespace Sys2Proof.Machine

/-! # Error reports (R134, R135)

E4 (WC) is raised by a TWI_DATA write only, E5 (DERR) by a digit write only, E6 (OVR) by no access. The first two leave
TWI_STATUS alone, so neither comes with E1. -/

@[simp] theorem Twi.issueUnlessReceiving_wc (t : Twi) (o : TwiOp) : (t.issueUnlessReceiving o).wc = t.wc := by
  rcases t.issueUnlessReceiving_cases o with ⟨-, h⟩ | ⟨-, h⟩ <;> rw [h]
  · exact t.illegal_wc
  · exact t.issue_wc o

@[simp] theorem Twi.transfer_wc (t : Twi) (k : Bool) : (t.transfer k).wc = t.wc := by
  rcases t.transfer_cases k with ⟨-, h⟩ | ⟨-, h⟩ | ⟨-, h⟩ | ⟨-, h⟩ <;> rw [h]
  · exact t.issue_wc _
  · exact t.issue_wc _
  · exact t.issue_wc _
  · exact t.illegal_wc

/-- A command that keeps WC makes an access that does, held back while busy or not. -/
theorem command_wc {s t : State} {f : Twi → Twi}
    (h : (.next { s with twi := s.twi.unlessBusy f } : Host.Outcome State Fault Refusal) = .next t)
    (hf : (f s.twi).wc = s.twi.wc) : t.twi.wc = s.twi.wc := by
  cases h
  by_cases ho : s.twi.op = .none
  · rwa [Twi.unlessBusy_free ho]
  · rw [Twi.unlessBusy_busy ho]

/-- No access but a TWI_DATA write raises WC: the commands keep it, and a disable clears it (R68, R72). -/
theorem exec_wc_clear {i : Instr} {s t : State} (hi : ∀ d, i ≠ .twiDataWr d) (h : exec i s = .next t)
    (hs : s.twi.wc = false) : t.twi.wc = false := by
  cases i
  case twiDataWr d => exact absurd rfl (hi d)
  case twiDisable d => cases h; exact s.twi.disable_wc d
  case twiConfig d => exact (command_wc h (s.twi.configure_wc d)).trans hs
  case twiStart d => exact (command_wc h ((s.twi.configure d).issueUnlessReceiving_wc .start)).trans hs
  case twiStop d => exact (command_wc h ((s.twi.configure d).issueUnlessReceiving_wc .stop)).trans hs
  case twiXfer d => exact (command_wc h ((s.twi.configure d).transfer_wc (ctrlEA d))).trans hs
  case twiCmdReserved d => exact (command_wc h (s.twi.configure d).illegal_wc).trans hs
  all_goals cases h; exact hs

/-- No access but a digit write raises DERR: a DISP_STATUS write can only clear it (R90, R92). -/
theorem exec_derr_clear {i : Instr} {s t : State} (hi : ∀ n d, i ≠ .dispDigitWr n d) (h : exec i s = .next t)
    (hs : s.disp.derr = false) : t.disp.derr = false := by
  cases i
  case dispDigitWr n d => exact absurd rfl (hi n d)
  case twiDisable d => cases h; rwa [State.releaseBus_disp]
  case dispStatusWr d => cases h; rw [hs, w1c_false]
  all_goals cases h; exact hs

/-- A flag that stays clear when it was clear is not newly raised. -/
theorem not_raised {before after : Bool} (h : before = false → after = false) : (after && !before) = false := by
  cases before with
  | false => rw [h rfl, Bool.false_and]
  | true => exact Bool.and_false after

/-- A TWI_STATUS left as it was has not turned 0x00. -/
theorem not_turned_illegal {before after : Byte} (h : after = before) :
    decide (after = 0x00 ∧ before ≠ 0x00) = false :=
  decide_eq_false fun ⟨ha, hb⟩ => hb (h.symm.trans ha)

/-- Settles O49: a TWI_DATA write can raise E4 only, a digit write E5 only, every other access E1 only. -/
theorem oneErrorReportPerAccess : Obligations.OneErrorReportPerAccess := by
  intro i s t h
  have noOvr := not_raised (exec_ovr_clear h)
  by_cases hdata : ∃ d, i = .twiDataWr d
  · obtain ⟨d, rfl⟩ := hdata
    have frame := exec_twiDataWr_frame h
    have status : t.twi.status = s.twi.status := by rw [frame]
    have noDerr := not_raised (exec_derr_clear (fun _ _ => Instr.noConfusion) h)
    rw [not_turned_illegal status, noDerr, noOvr]
    simpa using Bool.toNat_le (t.twi.wc && !s.twi.wc)
  have noWc := not_raised (exec_wc_clear (fun d e => hdata ⟨d, e⟩) h)
  by_cases hdigit : ∃ n d, i = .dispDigitWr n d
  · obtain ⟨n, d, rfl⟩ := hdigit
    have frame := exec_dispDigitWr_frame h
    have status : t.twi.status = s.twi.status := by rw [frame]
    rw [not_turned_illegal status, noWc, noOvr]
    simpa using Bool.toNat_le (t.disp.derr && !s.disp.derr)
  have noDerr := not_raised (exec_derr_clear (fun n d e => hdigit ⟨n, d, e⟩) h)
  rw [noWc, noDerr, noOvr]
  exact Bool.toNat_le _

end Sys2Proof.Machine
